-- ==== Sys2Proof/Word.lean ====
section
/-! DEFINITION. The widths of the block's formats (30_encoding.md R60, 00_scope.md R10) and the two
enumerations that the spec gives by name: the acquisition mode (10_state.md R22) and the resolution
(10_state.md R24, R26). -/

namespace Sys2Proof

/-- `u8`: an address, a control byte, a status byte. -/
abbrev Byte := BitVec 8

/-- The 16-bit two's-complement raw sample (30_encoding.md R69). -/
abbrev Sample := BitVec 16

/-- The 24-bit read frame `{sample_high, sample_low, status}` (30_encoding.md R68). -/
abbrev Frame := BitVec 24

/-- The 32-bit command word and the 32-bit response data (30_encoding.md R70, R76). -/
abbrev Word := BitVec 32

/-- The acquisition mode, register `MODE`: 0 is `OneShot`, 1 is `Continuous` (10_state.md R22). -/
inductive Mode where
  | oneShot
  | continuous
deriving DecidableEq, Repr, Inhabited

/-- The resolution, register `RES`. DEDUCED, safe: a three-valued type, since the code 3 is reserved and
the register never holds it (10_state.md R26; 93 U3; notes/assumptions/6.md). -/
inductive Resolution where
  | r12
  | r14
  | r16
deriving DecidableEq, Repr, Inhabited

end Sys2Proof
end

