-- ==== Sys2Proof/Config.lean ====
section
/-! DEFINITION. What an implementation or the environment fixes: the constants of 00_scope.md R7, the open
parameters of 00_scope.md R8, and the oracle that stands for the external device and the bus transport
(00_scope.md R17, 92_eei_decisions.md D30). -/

namespace Sys2Proof.Config

/-- `FULL_SCALE_MV`: the reference is ±2048 mV (R7). -/
def fullScaleMv : Nat := 2048

/-- `SPAN_MV`, twice the full scale: the numerator of the voltage formula (R7). -/
def spanMv : Nat := 2 * fullScaleMv

/-- `GUARD_MARGIN`, 2 time units of 1 ms (R7, 92 D13). -/
def guardMargin : Nat := 2

/-- `POLL_INTERVAL`, 1 time unit of 1 ms (R7, 92 D13). -/
def pollInterval : Nat := 1

/-- `RESET_ADDR`. DESIGN CHOICE, unsafe: the spec leaves it open (10_state.md R32); the value only serves
`State.reset`, while `State.resetWith` takes any (notes/assumptions/1.md). -/
def resetAddr : Byte := 0x00#8

/-- `RESET_MODE`. DESIGN CHOICE, unsafe: the spec leaves it open (10_state.md R32; notes/assumptions/1.md). -/
def resetMode : Mode := .oneShot

/-- The mode of the external device at its own power-on. DESIGN CHOICE, unsafe: the spec gives the other three
selections and not this one (20_memory.md R54; 91 N23; notes/assumptions/17.md). -/
def devicePowerOnMode : Mode := .oneShot

/-- Bit 7 of the device's control register at its power-on. DESIGN CHOICE, unsafe: the bit is a command to start a
conversion, and the spec gives it no value before the first write (notes/assumptions/17.md). -/
def devicePowerOnStart : BitVec 1 := 0#1

/-- A free value: one less than `NCHAN`. -/
opaque lastChannel : Fin 4

/-- `NCHAN`, the number of channels of the attached device, 1 to 4. Informational: no rule reads it
(R8, 92 D6; notes/assumptions/12.md). -/
def nchan : Nat := lastChannel.val + 1

/-- What the bus transport delivers for one read: some bytes in the order received, or its own error
(00_scope.md R13; 20_memory.md R42, R43). -/
inductive BusRead where
  | bytes (received : List Byte)
  | busError
deriving DecidableEq, Repr, Inhabited

/-- A free value: what the transport delivers for the n-th bus read. Unconstrained (20_memory.md R42, R43;
93 U16 to U18; notes/assumptions/4.md). -/
opaque readOracle : Nat → BusRead

/-- A free value: whether the n-th bus write is acknowledged. Unconstrained (20_memory.md R43; 93 U16;
notes/assumptions/4.md). -/
opaque writeOracle : Nat → Bool

/-- A free value: what the device's control register holds after the n-th bus write has failed, given what it held and
the byte that was sent. Unconstrained (20_memory.md R43; 91 N11; notes/assumptions/10.md). -/
opaque failedWrite : Nat → Byte → Byte → Byte

end Sys2Proof.Config
end

