-- ==== Sys2Proof/Syntax.lean ====
section
/-! DEFINITION. The instruction set: the seventeen commands of 30_encoding.md R72, one constructor for each
row of the opcode table, with the operands of R73. -/

namespace Sys2Proof

/-- A command of the block. An operand whose code can be reserved (the resolution of `WITH_RESOLUTION`, the
byte of `CB_FIELDS`) is kept as bits, since the rule of the command says what the reserved code does. -/
inductive Instr where
  /-- `CREATE addr, mode` (40_configuration.md R91). -/
  | create (addr : Byte) (mode : Mode)
  /-- `WITH_RESOLUTION res` (R92). -/
  | withResolution (res : BitVec 2)
  /-- `WITH_GAIN gain` (R93). -/
  | withGain (gain : BitVec 2)
  /-- `WITH_CHANNEL chan` (R94). -/
  | withChannel (chan : BitVec 2)
  /-- `SET_CHANNEL chan` (R95). -/
  | setChannel (chan : BitVec 2)
  /-- `SET_MODE mode` (R96). -/
  | setMode (mode : Mode)
  /-- `GET_ADDR` (R97). -/
  | getAddr
  /-- `CONTROL_BYTE` (41_control_encoder.md R101). -/
  | controlByte
  /-- `SETTLE_DELAY` (R102). -/
  | settleDelay
  /-- `RES_BITS` (R103). -/
  | resBits
  /-- `MAX_CODE` (R104). -/
  | maxCode
  /-- `MIN_CODE` (R105). -/
  | minCode
  /-- `CB_FIELDS byte` (R106). -/
  | cbFields (byte : Byte)
  /-- `STATUS byte` (42_status_decoder.md R111). -/
  | status (byte : Byte)
  /-- `UNPACK hi, lo, st`, the three bytes as one frame (R112). -/
  | unpack (frame : Frame)
  /-- `CALC_VOLTAGE raw` (44_voltage_decoder.md R141). -/
  | calcVoltage (raw : Sample)
  /-- `MEASURE hi, lo, st`, the three bytes as one frame (R142). -/
  | measure (frame : Frame)
deriving DecidableEq, Repr

end Sys2Proof
end

