-- ==== Sys2Proof/WellFormed.lean ====
section
/-! DEFINITION. The constraints of the opcode map (30_encoding.md R72, R74 case 3): the reserved operand
values that no legal word carries. -/

namespace Sys2Proof

/-- The constraint column of R72, as a check. -/
def Instr.wellFormed : Instr → Bool
  | .withResolution res => res != 3#2
  | .cbFields byte => byte.extractLsb' 2 2 != 3#2
  | .create _ _ | .withGain _ | .withChannel _ | .setChannel _ | .setMode _ | .getAddr => true
  | .controlByte | .settleDelay | .resBits | .maxCode | .minCode => true
  | .status _ | .unpack _ | .calcVoltage _ | .measure _ => true

/-- The instruction satisfies the constraint of its row. -/
abbrev WellFormed (i : Instr) : Prop := i.wellFormed = true

end Sys2Proof
end

