-- ==== Sys2Proof/Decode.lean ====
section
/-! DEFINITION. Decoding a command word, as 30_encoding.md R71 orders it (opcode, then mask and match, then the
row's constraint), with the rows of R72 and the operands of R73; then the encoder, from the Encoding lines of the
rules of files 40 to 44. -/

namespace Sys2Proof

/-- The mode a mode bit selects (R62, R73). -/
def modeOfBit (b : BitVec 1) : Mode := if b = 1#1 then .continuous else .oneShot

/-- The mode bit: 0 = one-shot, 1 = continuous (R62). -/
def Mode.bit : Mode → BitVec 1
  | .oneShot => 0#1
  | .continuous => 1#1

/-- The code of a resolution (R64). -/
def Resolution.code : Resolution → BitVec 2
  | .r12 => 0#2
  | .r14 => 1#2
  | .r16 => 2#2

/-- The resolution a code selects; the code 3 is reserved (R64). -/
def resolutionOfCode (c : BitVec 2) : Option Resolution :=
  if c = 0#2 then some .r12
  else if c = 1#2 then some .r14
  else if c = 2#2 then some .r16
  else none

/-- The device's control register at its own power-on: channel 1, 12-bit/240 SPS and gain ×1 by 20_memory.md R54, in
the layout of 30_encoding.md R61; the mode and the start bit are open (notes/assumptions/17.md). -/
def powerOnControl (mode : Mode) (start : BitVec 1) : Byte := start ++ 0#2 ++ mode.bit ++ Resolution.r12.code ++ 0#2

/-- Why a word is illegal: the three cases of R74, in its order. -/
inductive DecodeError where
  /-- Case 1: the opcode is none of the seventeen. -/
  | unknownOpcode (op : Byte)
  /-- Case 2: a bit of `arg` that the named command does not use is 1. -/
  | unusedBits (mnemonic : String)
  /-- Case 3: an operand of the named command holds a reserved value. -/
  | reservedOperand (mnemonic : String)
deriving DecidableEq, Repr

/-- The `op` field, bits 31–24 (R70). -/
def opField (w : Word) : Byte := w.extractLsb' 24 8

/-- The `arg` field, bits 23–0 (R70). -/
def argField (w : Word) : BitVec 24 := w.extractLsb' 0 24

/-! The operands, each an unsigned field of `arg` (R73). -/

/-- addr = `arg[7:0]`. -/
def argAddr (a : BitVec 24) : Byte := a.extractLsb' 0 8

/-- mode = `arg[8]`, in `CREATE`. -/
def argCreateMode (a : BitVec 24) : Mode := modeOfBit (a.extractLsb' 8 1)

/-- mode = `arg[0]`, in `SET_MODE`. -/
def argMode (a : BitVec 24) : Mode := modeOfBit (a.extractLsb' 0 1)

/-- res, gain and chan = `arg[1:0]`. -/
def argCode (a : BitVec 24) : BitVec 2 := a.extractLsb' 0 2

/-- byte = `arg[7:0]`. -/
def argByte (a : BitVec 24) : Byte := a.extractLsb' 0 8

/-- raw = `arg[15:0]`. -/
def argRaw (a : BitVec 24) : Sample := a.extractLsb' 0 16

/-- A row of the opcode map (R72): its opcode, its mask and match, and how its operands are taken from `arg`. -/
structure Row where
  mnemonic : String
  op : Byte
  mask : Word
  value : Word
  build : BitVec 24 → Instr

/-- The configuration group of R72. -/
def configurationRows : List Row :=
  [ ⟨"CREATE", 0x01#8, 0xFFFFFE00#32, 0x01000000#32, fun a => .create (argAddr a) (argCreateMode a)⟩,
    ⟨"WITH_RESOLUTION", 0x02#8, 0xFFFFFFFC#32, 0x02000000#32, fun a => .withResolution (argCode a)⟩,
    ⟨"WITH_GAIN", 0x03#8, 0xFFFFFFFC#32, 0x03000000#32, fun a => .withGain (argCode a)⟩,
    ⟨"WITH_CHANNEL", 0x04#8, 0xFFFFFFFC#32, 0x04000000#32, fun a => .withChannel (argCode a)⟩,
    ⟨"SET_CHANNEL", 0x05#8, 0xFFFFFFFC#32, 0x05000000#32, fun a => .setChannel (argCode a)⟩,
    ⟨"SET_MODE", 0x06#8, 0xFFFFFFFE#32, 0x06000000#32, fun a => .setMode (argMode a)⟩,
    ⟨"GET_ADDR", 0x07#8, 0xFFFFFFFF#32, 0x07000000#32, fun _ => .getAddr⟩ ]

/-- The encoder group of R72. -/
def encoderRows : List Row :=
  [ ⟨"CONTROL_BYTE", 0x10#8, 0xFFFFFFFF#32, 0x10000000#32, fun _ => .controlByte⟩,
    ⟨"SETTLE_DELAY", 0x11#8, 0xFFFFFFFF#32, 0x11000000#32, fun _ => .settleDelay⟩,
    ⟨"RES_BITS", 0x12#8, 0xFFFFFFFF#32, 0x12000000#32, fun _ => .resBits⟩,
    ⟨"MAX_CODE", 0x13#8, 0xFFFFFFFF#32, 0x13000000#32, fun _ => .maxCode⟩,
    ⟨"MIN_CODE", 0x14#8, 0xFFFFFFFF#32, 0x14000000#32, fun _ => .minCode⟩,
    ⟨"CB_FIELDS", 0x15#8, 0xFFFFFF00#32, 0x15000000#32, fun a => .cbFields (argByte a)⟩ ]

/-- The status and voltage groups of R72. -/
def decoderRows : List Row :=
  [ ⟨"STATUS", 0x20#8, 0xFFFFFF00#32, 0x20000000#32, fun a => .status (argByte a)⟩,
    ⟨"UNPACK", 0x21#8, 0xFF000000#32, 0x21000000#32, fun a => .unpack a⟩,
    ⟨"CALC_VOLTAGE", 0x30#8, 0xFFFF0000#32, 0x30000000#32, fun a => .calcVoltage (argRaw a)⟩,
    ⟨"MEASURE", 0x31#8, 0xFF000000#32, 0x31000000#32, fun a => .measure a⟩ ]

/-- The opcode map (R72): seventeen rows. -/
def opcodeMap : List Row := configurationRows ++ encoderRows ++ decoderRows

/-- The row of an opcode; at most one exists (R71). -/
def findRow (op : Byte) : Option Row := opcodeMap.find? (fun r => r.op == op)

/-- Decode a command word (R71): total, every word outside the map rejected by the case of R74 it falls under. -/
def decode (w : Word) : Except DecodeError Instr :=
  match findRow (opField w) with
  | none => .error (.unknownOpcode (opField w))
  | some row =>
    if w &&& row.mask ≠ row.value then .error (.unusedBits row.mnemonic)
    else if (row.build (argField w)).wellFormed then .ok (row.build (argField w))
    else .error (.reservedOperand row.mnemonic)

/-! The encoder. -/

/-- The opcode of each command (R72). -/
def opcodeOf : Instr → Byte
  | .create _ _ => 0x01#8
  | .withResolution _ => 0x02#8
  | .withGain _ => 0x03#8
  | .withChannel _ => 0x04#8
  | .setChannel _ => 0x05#8
  | .setMode _ => 0x06#8
  | .getAddr => 0x07#8
  | .controlByte => 0x10#8
  | .settleDelay => 0x11#8
  | .resBits => 0x12#8
  | .maxCode => 0x13#8
  | .minCode => 0x14#8
  | .cbFields _ => 0x15#8
  | .status _ => 0x20#8
  | .unpack _ => 0x21#8
  | .calcVoltage _ => 0x30#8
  | .measure _ => 0x31#8

/-- The operand field of each command: the operands right-aligned, every unused bit 0 (R72, R73). -/
def encodeArg : Instr → BitVec 24
  | .create addr mode => 0#15 ++ mode.bit ++ addr
  | .withResolution res => 0#22 ++ res
  | .withGain gain => 0#22 ++ gain
  | .withChannel chan => 0#22 ++ chan
  | .setChannel chan => 0#22 ++ chan
  | .setMode mode => 0#23 ++ mode.bit
  | .getAddr => 0#24
  | .controlByte => 0#24
  | .settleDelay => 0#24
  | .resBits => 0#24
  | .maxCode => 0#24
  | .minCode => 0#24
  | .cbFields byte => 0#16 ++ byte
  | .status byte => 0#16 ++ byte
  | .unpack frame => frame
  | .calcVoltage raw => 0#8 ++ raw
  | .measure frame => frame

/-- The command word of an instruction: `op` above `arg` (R70). -/
def encode (i : Instr) : Word := opcodeOf i ++ encodeArg i

/-- The word the table's low `nbits` bits stand for, every bit above them 0. -/
def tableWord (nbits w : Nat) : Word := BitVec.ofNat 32 (w % 2 ^ nbits)

/-- What the decoder reads from a table row's word. A command is one 32-bit word on the command port, so there is
no byte order between the table's bits and the word's (30_encoding.md R70, 20_memory.md R45). -/
def decodeTableWord (nbits w : Nat) : Option Instr := (decode (tableWord nbits w)).toOption

end Sys2Proof
end

