-- ==== Sys2Proof/Machine/State.lean ====
section
/-! DEFINITION. The state of the four agents of 00_scope.md R17 as plain data: the block's five registers
(10_state.md R20) and its response port (30_encoding.md R76), the caller's pending requests, the sequencer
(43_conversion_protocol.md R121) and the bus with what is known of the device (10_state.md R31). -/

namespace Sys2Proof.Machine

open Sys2Proof.Config (BusRead)

/-- The configuration: the block's complete architectural state (10_state.md R20 to R26). -/
structure Cfg where
  /-- `ADDR`, `x[0]` (R21). -/
  addr : Byte
  /-- `MODE`, `x[1]` (R22). -/
  mode : Mode
  /-- `CHAN`, `x[2]`; the value c selects channel c + 1 (R23). -/
  chan : BitVec 2
  /-- `RES`, `x[3]` (R24). -/
  res : Resolution
  /-- `GAIN`, `x[4]`; the value g selects the multiplier 2^g (R25). -/
  gain : BitVec 2
deriving DecidableEq, Repr

/-- The response codes of 30_encoding.md R77; codes 7 to 15 are reserved and never produced (R75). -/
inductive Code where
  | ok
  | overRange
  | underRange
  | notReady
  | illegal
  /-- Reserved; nothing produces it (60_exceptions.md R158). -/
  | notInitialized
  /-- No command produces it; a result of sequences (60_exceptions.md R156). -/
  | busError
deriving DecidableEq, Repr

/-- A response: a code and 32 bits of data (30_encoding.md R76). -/
structure Response where
  code : Code
  data : Word
deriving DecidableEq, Repr

/-- The three procedures of 43_conversion_protocol.md. -/
inductive Sequence where
  /-- `SEQ_ONESHOT` (R122 to R124). -/
  | oneShot
  /-- `SEQ_CONT_CONFIG` (R125). -/
  | contConfig
  /-- `SEQ_READ_POLL` (R126). -/
  | readPoll
deriving DecidableEq, Repr

/-- What a sequence ends with (43_conversion_protocol.md R134). -/
inductive SeqResult where
  /-- `Ok(mv)`, millivolts as an `i32`. -/
  | okVoltage (mv : Word)
  /-- `Ok(())`. -/
  | okUnit
  | busError
  | overRange
  | underRange
deriving DecidableEq, Repr

/-- An event of a trace (43_conversion_protocol.md R136). -/
inductive TraceEvent where
  /-- `W(addr, byte)`, or `W!(addr, byte)` when not acknowledged. -/
  | write (addr byte : Byte) (acknowledged : Bool)
  /-- `R(addr) = hi lo st`, or `R!(addr)` when there is no frame. -/
  | read (addr : Byte) (frame : Option Frame)
  /-- `S(t)`, t in milliseconds. -/
  | sleep (ms : Nat)
deriving DecidableEq, Repr

/-- The sequencer's phase (43_conversion_protocol.md R121), with the transaction or sleep in progress. The address
is the answer of the `GET_ADDR` at the start of the sequence (R120; DEDUCED, notes/assumptions/5.md). -/
inductive Phase where
  | idle
  /-- The write of `byte` to `addr` is in progress. -/
  | requested (q : Sequence) (addr byte : Byte)
  /-- The settle sleep of `ms` is in progress. -/
  | settling (q : Sequence) (addr : Byte) (ms : Nat)
  /-- A 3-byte read from `addr` is in progress. -/
  | reading (q : Sequence) (addr : Byte)
  /-- The poll sleep of `ms` is in progress. -/
  | polling (q : Sequence) (addr : Byte) (ms : Nat)
  | done
deriving DecidableEq, Repr

/-- The sequencer. -/
structure Sequencer where
  phase : Phase
  /-- The MODEL's: the sequence that the result and the trace are of, the one that was started last
  (notes/assumptions/9.md). -/
  started : Option Sequence
  /-- The result of the sequence that ended last; none while one runs (R121, R134; notes/assumptions/9.md). -/
  result : Option SeqResult
  /-- The trace of the sequence that was started last, in order (R136; notes/assumptions/9.md). -/
  trace : List TraceEvent
  /-- The MODEL's: a configuration command ran while the sequence was running (93 U14; notes/assumptions/7.md). -/
  disturbed : Bool
deriving DecidableEq, Repr

/-- The bus: the transport's answers and the device's control register. -/
structure Bus where
  /-- The MODEL's: answers given in advance to the next reads, "a bus stub" (00_scope.md R19); after them
  `Config.readOracle` answers (notes/assumptions/4.md). -/
  readStub : List BusRead
  /-- The MODEL's: whether the next writes are acknowledged; after them `Config.writeOracle` answers. -/
  writeStub : List Bool
  /-- The MODEL's: how many reads have been answered, the index of the oracle. -/
  reads : Nat
  /-- The MODEL's: how many writes have been answered. -/
  writes : Nat
  /-- The device's write-only 8-bit register, its copy of the configuration in the layout of the control byte
  (20_memory.md R54, 10_state.md R31 (2); notes/assumptions/10.md). DESIGN CHOICE, unsafe: between writes it keeps all
  8 bits, through reads, sleeps and conversions (notes/assumptions/18.md). -/
  control : Byte
deriving DecidableEq, Repr

/-- What the caller asks for (00_scope.md R18; DESIGN CHOICE, notes/assumptions/2.md). -/
inductive Event where
  /-- The caller presents a command word to the block (30_encoding.md R70). -/
  | command (w : Word)
  /-- The caller starts a sequence (43_conversion_protocol.md R120). -/
  | start (q : Sequence)
  /-- The sequencer makes its next move. -/
  | proceed
  /-- The caller waits for the running sequence to end and takes its result (43_conversion_protocol.md R133). -/
  | await
  /-- Reset is asserted with the two parameters on their pins (70_reset_and_hazards.md R170, 30_encoding.md R83). -/
  | reset (addr : Byte) (mode : Mode)
deriving DecidableEq, Repr

/-- The whole machine. -/
structure State where
  /-- The block's five registers. -/
  cfg : Cfg
  /-- The MODEL's: the response port, the answer of the last command (notes/assumptions/3.md). -/
  response : Option Response
  /-- The MODEL's: the caller's requests still to come, oldest first (notes/assumptions/2.md). -/
  events : List Event
  seq : Sequencer
  bus : Bus
deriving DecidableEq, Repr

/-- Why the machine stops with a fault: for no reason at all. "The block never faults or hangs" (00_scope.md R18,
30_encoding.md R71), every error is a response code (60_exceptions.md R157), and the sequencer reports bus errors
as results (43_conversion_protocol.md R129). -/
inductive Fault where
deriving DecidableEq, Repr

/-- Why the machine gives a request no meaning. No command of the block is refused; all but the first are requests
about sequences. -/
inductive Refusal where
  /-- Raised by an arm of `exec` for a command without a meaning; safe. No arm raises it. -/
  | notModelled (mnemonic : String)
  /-- Raised by the start of `SEQ_ONESHOT` in continuous mode or of `SEQ_CONT_CONFIG` in one-shot mode: "a model
  refuses it" (43_conversion_protocol.md R135, 93 U13); safe. -/
  | sequenceInWrongMode
  /-- Raised by the start of a sequence when the phase is not `Idle`: R133 has no such row, and one caller runs at
  most one sequence at a time (R120, 93 U11; notes/assumptions/11.md); safe. -/
  | startOutsideIdle
  /-- Raised by the next move of a sequence after a configuration command ran in its middle (R120, 93 U14;
  notes/assumptions/7.md); safe. The command itself has had its effect. -/
  | configurationDuringSequence
  /-- Raised by awaiting a result when no sequence was started (notes/assumptions/11.md); safe. -/
  | awaitWithoutSequence
deriving DecidableEq, Repr

/-- The configuration that `CREATE addr, mode` and reset make: resolution 12 bits, gain ×1, channel 1
(10_state.md R32; 40_configuration.md R91). -/
def Cfg.default (addr : Byte) (mode : Mode) : Cfg :=
  { addr := addr, mode := mode, chan := 0#2, res := .r12, gain := 0#2 }

/-- The sequencer after reset: `Idle`, nothing ended, nothing done (70_reset_and_hazards.md R171). -/
def Sequencer.atReset : Sequencer :=
  { phase := .idle, started := none, result := none, trace := [], disturbed := false }

/-- The bus before anything has crossed it, with the device's register. -/
def Bus.untouched (control : Byte) : Bus :=
  { readStub := [], writeStub := [], reads := 0, writes := 0, control := control }

/-- The machine right after power-on of the block and of the device (70_reset_and_hazards.md R170 to R172), with the
reset parameters `addr` and `mode` and with what the spec leaves open of the device's register: the spec's initial
state, for all values of the four. -/
def State.resetWith (addr : Byte) (mode deviceMode : Mode) (start : BitVec 1) : State :=
  { cfg := .default addr mode, response := none, events := [], seq := .atReset,
    bus := .untouched (powerOnControl deviceMode start) }

/-- The machine right after reset, with the open parameters at the values of Config (notes/assumptions/1.md and
17.md). -/
def State.reset : State :=
  .resetWith Config.resetAddr Config.resetMode Config.devicePowerOnMode Config.devicePowerOnStart

end Sys2Proof.Machine
end

