-- ==== Sys2Proof/Machine/Ops.lean ====
section
/-! DEFINITION. The named operations over the state: register writes, the response port, the bus, the sequencer's
fields, and the arithmetic primitives of 00_scope.md R10 and R11. -/

namespace Sys2Proof.Machine

open Sys2Proof.Config (BusRead)

/-- The outcome of a step of this machine. -/
abbrev Result := Host.Outcome State Fault Refusal

/-! ## Arithmetic (00_scope.md R10, R11) -/

/-- The quotient truncated toward zero, for a positive divisor (R11). -/
def tdiv (a b : Int) : Int := if 0 ≤ a then a / b else -((-a) / b)

/-- `zext_32` (R10). -/
def zext32 {n : Nat} (v : BitVec n) : Word := v.setWidth 32

/-- `sext_32` (R10). -/
def sext32 {n : Nat} (v : BitVec n) : Word := v.signExtend 32

/-! ## Registers -/

/-- Write the whole configuration. -/
def State.withCfg (c : Cfg) (s : State) : State := { s with cfg := c }

/-- `MODE <- v`. -/
def Cfg.setMode (v : Mode) (c : Cfg) : Cfg := { c with mode := v }

/-- `CHAN <- v`. -/
def Cfg.setChan (v : BitVec 2) (c : Cfg) : Cfg := { c with chan := v }

/-- `RES <- v`. -/
def Cfg.setRes (v : Resolution) (c : Cfg) : Cfg := { c with res := v }

/-- `GAIN <- v`. -/
def Cfg.setGain (v : BitVec 2) (c : Cfg) : Cfg := { c with gain := v }

/-- `x[i]`, the register notation of 00_scope.md R12, each value in 8 bits; there is no `x[i]` above 4. -/
def Cfg.x (c : Cfg) : Nat → Option Byte
  | 0 => some c.addr
  | 1 => some (c.mode.bit.setWidth 8)
  | 2 => some (c.chan.setWidth 8)
  | 3 => some (c.res.code.setWidth 8)
  | 4 => some (c.gain.setWidth 8)
  | _ + 5 => none

/-- The channel number a `CHAN` value selects, 1 to 4 (10_state.md R23). -/
def Cfg.channelNumber (c : Cfg) : Nat := c.chan.toNat + 1

/-- The multiplier a `GAIN` value selects (10_state.md R25). -/
def Cfg.gainMultiplier (c : Cfg) : Nat := 2 ^ c.gain.toNat

/-! ## Responses (00_scope.md R14, 30_encoding.md R76) -/

/-- Put a response on the port. -/
def State.answer (r : Response) (s : State) : State := { s with response := some r }

/-- `respond(code, data)`: the command ends with this answer (00_scope.md R14). -/
def respond (code : Code) (data : Word) (s : State) : Result := .next (s.answer ⟨code, data⟩)

/-- `raise <Name>`: what stands in for taking an exception. It is `respond(code, 0)`: no register changes, control
goes nowhere, nothing is saved (00_scope.md R14, 60_exceptions.md R157). There is no return (R161). -/
def raise (code : Code) (s : State) : Result := respond code 0#32 s

/-! ## The caller's requests -/

/-- The caller's pending requests become these. -/
def State.withEvents (es : List Event) (s : State) : State := { s with events := es }

/-! ## Sequencer -/

/-- The sequencer's fields become these. -/
def State.withSeq (q : Sequencer) (s : State) : State := { s with seq := q }

/-- `phase <- p`. -/
def State.setPhase (p : Phase) (s : State) : State := s.withSeq { s.seq with phase := p }

/-- Append an event to the trace (43_conversion_protocol.md R136). -/
def State.record (e : TraceEvent) (s : State) : State := s.withSeq { s.seq with trace := s.seq.trace ++ [e] }

/-- `phase <- Done; return r` (43_conversion_protocol.md R122 to R126). -/
def State.finish (r : SeqResult) (s : State) : State := s.withSeq { s.seq with phase := .done, result := some r }

/-- A sequence is running: the phase is neither `Idle` nor `Done` (43_conversion_protocol.md R121). -/
def Phase.running : Phase → Bool
  | .idle => false
  | .requested _ _ _ => true
  | .settling _ _ _ => true
  | .reading _ _ => true
  | .polling _ _ _ => true
  | .done => false

/-! ## Bus (20_memory.md R41 to R43) -/

/-- The bus's fields become these. -/
def State.withBus (b : Bus) (s : State) : State := { s with bus := b }

/-- What the transport delivers for the k-th read from now (0 is the next): the stub's answer, or the oracle's. -/
def Bus.answerAt (b : Bus) (k : Nat) : BusRead := (b.readStub[k]?).getD (Config.readOracle (b.reads + k))

/-- Whether the next write is acknowledged. -/
def Bus.nextAck (b : Bus) : Bool := (b.writeStub.head?).getD (Config.writeOracle b.writes)

/-- The frame of a read: exactly three bytes, most significant sample byte first; any other number of bytes is a
transport failure (20_memory.md R42, R43, R45, R46). -/
def frameOf : BusRead → Option Frame
  | .bytes [hi, lo, st] => some (hi ++ lo ++ st)
  | .bytes _ => none
  | .busError => none

/-- The next read's frame, none for a `BusError`. -/
def State.nextFrame (s : State) : Option Frame := frameOf (s.bus.answerAt 0)

/-- The next read has been answered. DESIGN CHOICE, unsafe: the read leaves the device's control register as it was;
whether a read changes anything in the device is open (20_memory.md R42, R47; notes/assumptions/18.md). -/
def State.takeRead (s : State) : State :=
  s.withBus { s.bus with readStub := s.bus.readStub.tail, reads := s.bus.reads + 1 }

/-- The next write has been answered. -/
def State.takeWrite (s : State) : State :=
  s.withBus { s.bus with writeStub := s.bus.writeStub.tail, writes := s.bus.writes + 1 }

/-- The device's control register becomes `b`. -/
def State.setControl (b : Byte) (s : State) : State := s.withBus { s.bus with control := b }

/-- The device has taken `byte` as its configuration (20_memory.md R41, R54). -/
def State.acknowledge (byte : Byte) (s : State) : State := s.setControl byte

/-- The write of `byte` has failed: what the device's register then holds is free (20_memory.md R43;
notes/assumptions/10.md). -/
def State.failWrite (byte : Byte) (s : State) : State :=
  s.setControl (Config.failedWrite s.bus.writes s.bus.control byte)

/-- Reset of the block and the sequencer (70_reset_and_hazards.md R170, R171): the registers as `CREATE` leaves them,
no response, phase `Idle`; no bus transaction, and the device and the transport are as they were. -/
def State.resetBlock (addr : Byte) (mode : Mode) (s : State) : State :=
  { s with cfg := .default addr mode, response := none, seq := .atReset }

end Sys2Proof.Machine
end

