-- ==== Sys2Proof/Machine/Operands.lean ====
section
/-! DEFINITION. The fields of a read frame, a status byte and a control byte (30_encoding.md R61, R67 to R69), the
numbers of the response codes (R77), and the table of per-resolution numbers (10_state.md R34). -/

namespace Sys2Proof.Machine

/-- The raw sample of a frame, `F[23:8]` (30_encoding.md R69). -/
def frameRaw (f : Frame) : Sample := f.extractLsb' 8 16

/-- The status byte of a frame, `F[7:0]` (30_encoding.md R68). -/
def frameStatus (f : Frame) : Byte := f.extractLsb' 0 8

/-- `gain` = byte[1:0] (30_encoding.md R65, R79). -/
def byteGain (b : Byte) : BitVec 2 := b.extractLsb' 0 2

/-- `res` = byte[3:2] (30_encoding.md R64, R79). -/
def byteRes (b : Byte) : BitVec 2 := b.extractLsb' 2 2

/-- `mode` = byte[4] (30_encoding.md R62, R79). -/
def byteMode (b : Byte) : BitVec 1 := b.extractLsb' 4 1

/-- `chan` = byte[6:5] (30_encoding.md R63, R79). -/
def byteChan (b : Byte) : BitVec 2 := b.extractLsb' 5 2

/-- Bit 7: `start` in a control byte, `nrdy` in a status byte (30_encoding.md R61, R67). -/
def byteTop (b : Byte) : BitVec 1 := b.extractLsb' 7 1

/-- The 4-bit number of a response code (30_encoding.md R77). -/
def Code.number : Code → BitVec 4
  | .ok => 0#4
  | .overRange => 1#4
  | .underRange => 2#4
  | .notReady => 3#4
  | .illegal => 4#4
  | .notInitialized => 5#4
  | .busError => 6#4

/-- The response code of the same name as a sequence's result (43_conversion_protocol.md R134). -/
def SeqResult.code : SeqResult → Code
  | .okVoltage _ => .ok
  | .okUnit => .ok
  | .busError => .busError
  | .overRange => .overRange
  | .underRange => .underRange

/-- A row of the table of 10_state.md R34. -/
structure ResolutionRow where
  bits : Nat
  maxcode : Sample
  mincode : Sample
  sampleRate : Nat
  settle : Nat
deriving DecidableEq, Repr

/-- The table of 10_state.md R34, keyed by the resolution; settle values in milliseconds. -/
def resolutionRow : Resolution → ResolutionRow
  | .r12 => { bits := 12, maxcode := 0x07FF#16, mincode := 0xF800#16, sampleRate := 240, settle := 4 }
  | .r14 => { bits := 14, maxcode := 0x1FFF#16, mincode := 0xE000#16, sampleRate := 60, settle := 15 }
  | .r16 => { bits := 16, maxcode := 0x7FFF#16, mincode := 0x8000#16, sampleRate := 15, settle := 57 }

/-- `bits(RES)` (41_control_encoder.md R103). -/
def bitsOf (r : Resolution) : Nat := (resolutionRow r).bits

/-- `maxcode(RES)` (41_control_encoder.md R104). -/
def maxcode (r : Resolution) : Sample := (resolutionRow r).maxcode

/-- `mincode(RES)` (41_control_encoder.md R105). -/
def mincode (r : Resolution) : Sample := (resolutionRow r).mincode

/-- `settle(RES)` in milliseconds (41_control_encoder.md R102). -/
def settle (r : Resolution) : Nat := (resolutionRow r).settle

end Sys2Proof.Machine
end

