-- ==== Sys2Proof/Machine/Flags.lean ====
section
/-! DEFINITION. The three conditions that a response reports and nothing stores (10_state.md R29): ready, over-range
and under-range. -/

namespace Sys2Proof.Machine

/-- `ready(byte)`: the top bit of the status byte is clear (42_status_decoder.md R111). -/
def ready (b : Byte) : Bool := byteTop b == 0#1

/-- `ready(byte)` as the data bit that `STATUS` and `UNPACK` answer with (R111, R112). -/
def readyBit (b : Byte) : BitVec 1 := if ready b then 1#1 else 0#1

/-- Over-range: the raw sample equals the maximum code (44_voltage_decoder.md R141, 60_exceptions.md R152). -/
def isOverRange (r : Resolution) (raw : Sample) : Bool := raw.toInt == (maxcode r).toInt

/-- Under-range: the raw sample equals the minimum code (44_voltage_decoder.md R141, 60_exceptions.md R153). -/
def isUnderRange (r : Resolution) (raw : Sample) : Bool := raw.toInt == (mincode r).toInt

end Sys2Proof.Machine
end

