-- ==== Sys2Proof/Machine/Encoder.lean ====
section
/-! DEFINITION. The control-byte encoder, the per-resolution lookups and the field decoder: the six commands of
41_control_encoder.md. Each reads the configuration or its operand, writes no register and sets no flag (R100). -/

namespace Sys2Proof.Machine

/-- The start bit: 1 in one-shot mode only (30_encoding.md R66). -/
def startBit : Mode → Byte
  | .oneShot => 1#8
  | .continuous => 0#8

/-- `cb(cfg)`, the control byte: the OR of the shifted fields (41_control_encoder.md R101, 30_encoding.md R61). -/
def cb (c : Cfg) : Byte :=
  (startBit c.mode <<< 7) ||| (c.chan.setWidth 8 <<< 5) ||| (c.mode.bit.setWidth 8 <<< 4)
    ||| (c.res.code.setWidth 8 <<< 2) ||| c.gain.setWidth 8

/-- The configuration image `zext_32({ADDR, cb(cfg)})` (30_encoding.md R78). -/
def image (c : Cfg) : Word := zext32 (c.addr ++ cb c)

/-- The answer of `CONTROL_BYTE` (R101). -/
def controlByteAnswer (c : Cfg) : Response := ⟨.ok, zext32 (cb c)⟩

/-- The answer of `SETTLE_DELAY` (R102). -/
def settleDelayAnswer (c : Cfg) : Response := ⟨.ok, BitVec.ofNat 32 (settle c.res)⟩

/-- The field image of a byte: each field in a nibble of its own (30_encoding.md R79). -/
def fieldImage (b : Byte) : Word :=
  0#15 ++ byteTop b ++ 0#2 ++ byteChan b ++ 0#3 ++ byteMode b ++ 0#2 ++ byteRes b ++ 0#2 ++ byteGain b

/-- `CONTROL_BYTE` (R101). -/
def execControlByte (s : State) : Result := .next (s.answer (controlByteAnswer s.cfg))

/-- `SETTLE_DELAY` (R102). -/
def execSettleDelay (s : State) : Result := .next (s.answer (settleDelayAnswer s.cfg))

/-- `RES_BITS` (R103). -/
def execResBits (s : State) : Result := respond .ok (BitVec.ofNat 32 (bitsOf s.cfg.res)) s

/-- `MAX_CODE` (R104). -/
def execMaxCode (s : State) : Result := respond .ok (sext32 (maxcode s.cfg.res)) s

/-- `MIN_CODE` (R105). -/
def execMinCode (s : State) : Result := respond .ok (sext32 (mincode s.cfg.res)) s

/-- `CB_FIELDS byte` (R106): the reserved resolution code is refused, and nothing else of the byte is checked. -/
def execCbFields (b : Byte) (s : State) : Result :=
  if byteRes b = 3#2 then raise .illegal s else respond .ok (fieldImage b) s

end Sys2Proof.Machine
end

