-- ==== Sys2Proof/Machine/Configuration.lean ====
section
/-! DEFINITION. The seven commands of 40_configuration.md that create, change or read the configuration. None
performs a bus transaction or sets a flag (R90). -/

namespace Sys2Proof.Machine

/-- The end of a builder command: the configuration becomes `c`, and the answer is its image
(40_configuration.md R91 to R94). -/
def buildCfg (c : Cfg) (s : State) : Result := respond .ok (image c) (s.withCfg c)

/-- The end of an in-place mutator: the configuration becomes `c`, and the answer carries no data
(40_configuration.md R95, R96). -/
def mutateCfg (c : Cfg) (s : State) : Result := respond .ok 0#32 (s.withCfg c)

/-- The answer of `GET_ADDR` (R97). -/
def getAddrAnswer (c : Cfg) : Response := ⟨.ok, zext32 c.addr⟩

/-- `CREATE addr, mode` (R91): all five registers are written. -/
def execCreate (addr : Byte) (mode : Mode) (s : State) : Result := buildCfg (.default addr mode) s

/-- `WITH_RESOLUTION res` (R92): the reserved code answers `ILLEGAL` and writes nothing. -/
def execWithResolution (res : BitVec 2) (s : State) : Result :=
  match resolutionOfCode res with
  | none => raise .illegal s
  | some r => buildCfg (s.cfg.setRes r) s

/-- `WITH_GAIN gain` (R93). -/
def execWithGain (gain : BitVec 2) (s : State) : Result := buildCfg (s.cfg.setGain gain) s

/-- `WITH_CHANNEL chan` (R94): all four codes, whatever `NCHAN` is. -/
def execWithChannel (chan : BitVec 2) (s : State) : Result := buildCfg (s.cfg.setChan chan) s

/-- `SET_CHANNEL chan` (R95): the in-place form. -/
def execSetChannel (chan : BitVec 2) (s : State) : Result := mutateCfg (s.cfg.setChan chan) s

/-- `SET_MODE mode` (R96). -/
def execSetMode (mode : Mode) (s : State) : Result := mutateCfg (s.cfg.setMode mode) s

/-- `GET_ADDR` (R97). -/
def execGetAddr (s : State) : Result := .next (s.answer (getAddrAnswer s.cfg))

end Sys2Proof.Machine
end

