-- ==== Sys2Proof/Machine/StatusDecoder.lean ====
section
/-! DEFINITION. The status decoder and the frame unpacker: the two commands of 42_status_decoder.md. Both are pure
functions of their operand and accept every value of it (R110). -/

namespace Sys2Proof.Machine

/-- The answer of `STATUS`: the byte retained in data[7:0], ready in data[8] (R111). -/
def statusAnswer (b : Byte) : Response := ⟨.ok, 0#23 ++ readyBit b ++ b⟩

/-- The answer of `UNPACK`: raw in data[15:0], the status byte in data[23:16], ready in data[24] (R112). -/
def unpackAnswer (f : Frame) : Response := ⟨.ok, 0#7 ++ readyBit (frameStatus f) ++ frameStatus f ++ frameRaw f⟩

/-- `STATUS byte` (R111). -/
def execStatus (b : Byte) (s : State) : Result := .next (s.answer (statusAnswer b))

/-- `UNPACK hi, lo, st` (R112). -/
def execUnpack (f : Frame) (s : State) : Result := .next (s.answer (unpackAnswer f))

end Sys2Proof.Machine
end

