-- ==== Sys2Proof/Machine/Voltage.lean ====
section
/-! DEFINITION. The voltage decoder with saturation detection: the two commands of 44_voltage_decoder.md. Both read
`RES` and no other register, and write none (R140); the gain is not in the formula (R146). -/

namespace Sys2Proof.Machine

/-- The 32-bit product `sext_32(raw) * 4096` (44_voltage_decoder.md R141, R144). -/
def product (raw : Sample) : Word := sext32 raw * BitVec.ofNat 32 Config.spanMv

/-- The millivolts of a sample that is not saturated: multiply in 32 bits, then divide by 2^bits, truncating toward
zero (44_voltage_decoder.md R141, R143). -/
def millivolts (r : Resolution) (raw : Sample) : Int := tdiv (product raw).toInt (2 ^ bitsOf r)

/-- `volt(RES, raw)` (44_voltage_decoder.md R141). -/
def volt (r : Resolution) (raw : Sample) : Response :=
  if isOverRange r raw then ⟨.overRange, 0#32⟩
  else if isUnderRange r raw then ⟨.underRange, 0#32⟩
  else ⟨.ok, BitVec.ofInt 32 (millivolts r raw)⟩

/-- The answer of `MEASURE`: the ready gate first, then the voltage decoder (44_voltage_decoder.md R142). -/
def measureAnswer (r : Resolution) (f : Frame) : Response :=
  if ready (frameStatus f) then volt r (frameRaw f) else ⟨.notReady, 0#32⟩

/-- `CALC_VOLTAGE raw` (R141). -/
def execCalcVoltage (raw : Sample) (s : State) : Result := .next (s.answer (volt s.cfg.res raw))

/-- `MEASURE hi, lo, st` (R142). -/
def execMeasure (f : Frame) (s : State) : Result := .next (s.answer (measureAnswer s.cfg.res f))

end Sys2Proof.Machine
end

