-- ==== Sys2Proof/Machine/Dispatch.lean ====
section
/-! DEFINITION. One arm per command: the function `exec` of 30_encoding.md R71 on a decoded word. -/

namespace Sys2Proof.Machine

-- Each arm is one direct call of the command's own meaning.
def exec (i : Instr) (s : State) : Host.Outcome State Fault Refusal :=
  match i with
  | .create addr mode => Sys2Proof.Machine.execCreate addr mode s
  | .withResolution res => Sys2Proof.Machine.execWithResolution res s
  | .withGain gain => Sys2Proof.Machine.execWithGain gain s
  | .withChannel chan => Sys2Proof.Machine.execWithChannel chan s
  | .setChannel chan => Sys2Proof.Machine.execSetChannel chan s
  | .setMode mode => Sys2Proof.Machine.execSetMode mode s
  | .getAddr => Sys2Proof.Machine.execGetAddr s
  | .controlByte => Sys2Proof.Machine.execControlByte s
  | .settleDelay => Sys2Proof.Machine.execSettleDelay s
  | .resBits => Sys2Proof.Machine.execResBits s
  | .maxCode => Sys2Proof.Machine.execMaxCode s
  | .minCode => Sys2Proof.Machine.execMinCode s
  | .cbFields byte => Sys2Proof.Machine.execCbFields byte s
  | .status byte => Sys2Proof.Machine.execStatus byte s
  | .unpack frame => Sys2Proof.Machine.execUnpack frame s
  | .calcVoltage raw => Sys2Proof.Machine.execCalcVoltage raw s
  | .measure frame => Sys2Proof.Machine.execMeasure frame s

end Sys2Proof.Machine
end

