-- ==== Sys2Proof/Machine/Sequencer.lean ====
section
/-! DEFINITION. The agents around the block: the delivery of a command word to it (30_encoding.md R71), and the
sequencer, one function for each event of the transition table (43_conversion_protocol.md R133). The sequencer reads
the block through the answers of its commands (R120), which pass over the response port. -/

namespace Sys2Proof.Machine

/-! ## Commands -/

/-- The six commands that write configuration registers (30_encoding.md R83). -/
def writesConfiguration : Instr → Bool
  | .create _ _ | .withResolution _ | .withGain _ | .withChannel _ | .setChannel _ | .setMode _ => true
  | .getAddr | .controlByte | .settleDelay | .resBits | .maxCode | .minCode | .cbFields _ => false
  | .status _ | .unpack _ | .calcVoltage _ | .measure _ => false

/-- A configuration command while a sequence runs is noted: the command runs "like any command", the sequence loses
its meaning (93 U14; DESIGN CHOICE, safe, notes/assumptions/7.md). -/
def State.noteCommand (i : Instr) (s : State) : State :=
  if s.seq.phase.running && writesConfiguration i then s.withSeq { s.seq with disturbed := true } else s

/-- A command word reaches the block (30_encoding.md R71): an illegal word answers `ILLEGAL` with data 0 and changes
nothing else (R74), a legal one runs. -/
def deliver (w : Word) (s : State) : Result :=
  match decode w with
  | .error _ => raise .illegal s
  | .ok i => exec i (s.noteCommand i)

/-! ## Sequences -/

/-- The mode a sequence is defined in; `SEQ_READ_POLL` has no precondition (43_conversion_protocol.md R135). -/
def Sequence.allowedIn : Sequence → Mode → Bool
  | .oneShot, m => m == .oneShot
  | .contConfig, m => m == .continuous
  | .readPoll, _ => true

/-- The settle sleep: with the guard margin in `SEQ_ONESHOT` (R123), without it in `SEQ_CONT_CONFIG` (R125). -/
def settleSleep : Sequence → Resolution → Nat
  | .oneShot, r => settle r + Config.guardMargin
  | .contConfig, r => settle r
  | .readPoll, r => settle r

/-- The sequencer at the beginning of the sequence `q`, in phase `p`: an empty trace and no result. -/
def State.begin (q : Sequence) (p : Phase) (s : State) : State :=
  s.withSeq { phase := p, started := some q, result := none, trace := [], disturbed := false }

/-- Idle to Requested: the address and the control byte are read through `GET_ADDR` and `CONTROL_BYTE`, and the write
is issued (R120, R122, R125). -/
def requestWrite (q : Sequence) (s : State) : State :=
  ((s.answer (getAddrAnswer s.cfg)).answer (controlByteAnswer s.cfg)).begin q
    (.requested q s.cfg.addr (cb s.cfg))

/-- Idle to Reading: `SEQ_READ_POLL` issues its first read (R126). -/
def requestRead (s : State) : State :=
  (s.answer (getAddrAnswer s.cfg)).begin .readPoll (.reading .readPoll s.cfg.addr)

/-- The caller starts a sequence: from `Idle`, and in the mode it is defined in (R120, R133, R135). -/
def startSequence (q : Sequence) (s : State) : Result :=
  if s.seq.phase ≠ .idle then .refused .startOutsideIdle
  else if q.allowedIn s.cfg.mode then
    match q with
    | .oneShot => .next (requestWrite .oneShot s)
    | .contConfig => .next (requestWrite .contConfig s)
    | .readPoll => .next (requestRead s)
  else .refused .sequenceInWrongMode

/-- Requested: the transport acknowledges the write, and the settle sleep begins for the time `SETTLE_DELAY` gives, or
it fails, and the sequence is aborted (R122, R123, R125, R129). -/
def afterWrite (q : Sequence) (addr byte : Byte) (s : State) : State :=
  if s.bus.nextAck then
    (((s.acknowledge byte).takeWrite.record (.write addr byte true)).answer (settleDelayAnswer s.cfg)).setPhase
      (.settling q addr (settleSleep q s.cfg.res))
  else ((s.failWrite byte).takeWrite.record (.write addr byte false)).finish .busError

/-- Settling or Polling: the sleep is over, and a read is issued (R125, R126). DESIGN CHOICE, unsafe: the time that has
passed leaves the device's control register as it was (notes/assumptions/18.md). -/
def afterSleep (q : Sequence) (addr : Byte) (ms : Nat) (s : State) : State :=
  (s.record (.sleep ms)).setPhase (.reading q addr)

/-- A frame that is not ready: sleep for the poll interval, then read again (R125, R126). -/
def poll (q : Sequence) (addr : Byte) (s : State) : State := s.setPhase (.polling q addr Config.pollInterval)

/-- A frame in `SEQ_CONT_CONFIG`: the ready test alone decides, and the sample is discarded (R125). -/
def configFrame (addr : Byte) (f : Frame) (s : State) : State :=
  let s1 := s.answer (statusAnswer (frameStatus f))
  if ready (frameStatus f) then s1.finish .okUnit else poll .contConfig addr s1

/-- A frame in the read-and-poll loop of `SEQ_READ_POLL` and `SEQ_ONESHOT`: `MEASURE` decides (R124, R126). -/
def measureFrame (q : Sequence) (addr : Byte) (f : Frame) (s : State) : State :=
  let r := measureAnswer s.cfg.res f
  let s1 := s.answer r
  match r.code with
  | .ok => s1.finish (.okVoltage r.data)
  | .overRange => s1.finish .overRange
  | .underRange => s1.finish .underRange
  | _ => poll q addr s1

/-- A frame has been received (R124 to R126). -/
def afterFrame (q : Sequence) (addr : Byte) (f : Frame) (s : State) : State :=
  match q with
  | .contConfig => configFrame addr f s
  | .oneShot => measureFrame .oneShot addr f s
  | .readPoll => measureFrame .readPoll addr f s

/-- Reading: the transport delivers a frame, or the read fails and the sequence is aborted (R125, R126, R129). -/
def afterRead (q : Sequence) (addr : Byte) (s : State) : State :=
  match s.nextFrame with
  | none => (s.takeRead.record (.read addr none)).finish .busError
  | some f => afterFrame q addr f (s.takeRead.record (.read addr (some f)))

/-- The sequencer's next move; none when no sequence is running (R133). -/
def move (s : State) : State :=
  match s.seq.phase with
  | .idle => s
  | .requested q addr byte => afterWrite q addr byte s
  | .settling q addr ms => afterSleep q addr ms s
  | .reading q addr => afterRead q addr s
  | .polling q addr ms => afterSleep q addr ms s
  | .done => s

/-- The sequencer moves, unless a configuration command ran in the middle of the sequence: such a sequence has no
meaning (R120; 93 U14, "refuse"). -/
def advance (s : State) : Result :=
  if s.seq.phase.running && s.seq.disturbed then .refused .configurationDuringSequence else .next (move s)

/-- The caller waits: while the sequence runs, the sequencer moves and the request stays; when it has ended, the
caller takes the result and the phase is `Idle` again (R130, R133). -/
def awaitResult (s : State) : Result :=
  match s.seq.phase with
  | .idle => .refused .awaitWithoutSequence
  | .done => .next (s.setPhase .idle)
  | _ => advance (s.withEvents (.await :: s.events))

/-- One request of the caller, already taken from the list. -/
def handle (e : Event) (s : State) : Result :=
  match e with
  | .command w => deliver w s
  | .start q => startSequence q s
  | .proceed => advance s
  | .await => awaitResult s
  | .reset addr mode => .next (s.resetBlock addr mode)

/-- Take the oldest request and handle it; with none, the sequencer moves if a sequence is running. -/
def serve (s : State) : Result :=
  match s.events with
  | [] => advance s
  | e :: rest => handle e (s.withEvents rest)

/-- Present a command word as the very next request. -/
def State.present (w : Word) (s : State) : State := s.withEvents (.command w :: s.events)

end Sys2Proof.Machine
end

