-- ==== Sys2Proof/Machine/Step.lean ====
section
/-! DEFINITION. One step of the whole machine: it serves the caller's oldest request, or lets the sequencer move. -/

namespace Sys2Proof.Machine

/-- One step (00_scope.md R17, R18). -/
def step (s : State) : Host.Outcome State Fault Refusal := serve s

/-- The state with a table row's word presented on the command port ahead of every other request, so that the very
next step runs it (notes/assumptions/2.md). -/
def State.withFetchWord (s : State) (nbits w : Nat) : State := s.present (tableWord nbits w)

end Sys2Proof.Machine
end

