-- ==== Sys2Proof/Safety.lean ====
section
/-! DEFINITION. The terms that claims use: what a caller owes (70_reset_and_hazards.md section 3), the fairness
premise of 43_conversion_protocol.md R128, and the order of a sequence's trace (R132). -/

namespace Sys2Proof.Safety

open Sys2Proof.Machine

/-! ## The caller's duties -/

/-- A 7-bit address (70_reset_and_hazards.md R183, 93 U1). -/
abbrev SevenBitAddress (c : Cfg) : Prop := c.addr.toNat ≤ 127

/-- The raw sample lies in the effective range of the resolution (44_voltage_decoder.md R147, 93 U4). -/
abbrev InEffectiveRange (r : Resolution) (raw : Sample) : Prop :=
  (mincode r).toInt ≤ raw.toInt ∧ raw.toInt ≤ (maxcode r).toInt

/-- The device holds the configuration the block holds: bits 6-0 of its register are those of the block's control byte;
bit 7 is the start marker and no configuration (70_reset_and_hazards.md R174, R178; 10_state.md R31 (2)). -/
abbrev DeviceInStep (s : State) : Prop := s.bus.control.extractLsb' 0 7 = (cb s.cfg).extractLsb' 0 7

/-- No configuration command has run in the middle of the running sequence (70_reset_and_hazards.md R181). -/
abbrev Undisturbed (s : State) : Prop := s.seq.disturbed = false

/-! ## Runs -/

/-- `n` steps of the machine. -/
abbrev runFor (n : Nat) (s : State) : Host.Outcome State Fault Refusal := Sys2Proof.core.run n s

/-- The frame is ready (42_status_decoder.md R111). -/
abbrev FrameReady (f : Frame) : Prop := ready (frameStatus f) = true

/-- The bytes of a frame in the order of the bus (30_encoding.md R68). -/
def busBytes (f : Frame) : Config.BusRead :=
  .bytes [f.extractLsb' 16 8, f.extractLsb' 8 8, f.extractLsb' 0 8]

/-- Every frame of the list is not ready. -/
def AllNotReady (fs : List Frame) : Prop := ∀ f ∈ fs, ready (frameStatus f) = false

/-- The k-th read from now fails or delivers a ready frame: it ends a read-and-poll loop. -/
def Ends (b : Bus) (k : Nat) : Prop := ∀ f, frameOf (b.answerAt k) = some f → FrameReady f

/-- The premise of eventual readiness (43_conversion_protocol.md R128): some later read fails or is ready. -/
def EventuallyReady (b : Bus) : Prop := ∃ k, Ends b k

/-- The result of a read-and-poll loop for a ready frame (43_conversion_protocol.md R126). -/
def resultOf (r : Resolution) (f : Frame) : SeqResult :=
  match (volt r (frameRaw f)).code with
  | .overRange => .overRange
  | .underRange => .underRange
  | _ => .okVoltage (volt r (frameRaw f)).data

/-! ## The order of a trace (43_conversion_protocol.md R132) -/

/-- What precedes the first read: in `SEQ_ONESHOT` and `SEQ_CONT_CONFIG` one acknowledged write and one settle sleep. -/
def opening (q : Sequence) (addr byte : Byte) (r : Resolution) : List TraceEvent :=
  match q with
  | .readPoll => []
  | .oneShot => [.write addr byte true, .sleep (settleSleep .oneShot r)]
  | .contConfig => [.write addr byte true, .sleep (settleSleep .contConfig r)]

/-- The reads of frames that were not ready, each followed by one poll sleep. -/
def polls (addr : Byte) (fs : List Frame) : List TraceEvent :=
  fs.flatMap fun f => [.read addr (some f), .sleep Config.pollInterval]

/-- The result that a sequence's last frame gives. -/
def endResult (q : Sequence) (r : Resolution) (f : Frame) : SeqResult :=
  match q with
  | .contConfig => .okUnit
  | .oneShot => resultOf r f
  | .readPoll => resultOf r f

/-- The trace and result of a sequence that has ended: its write failed, or its last read failed, or that read
delivered the first ready frame. -/
def Ended (q : Sequencer) : Prop :=
  ∃ k, q.started = some k ∧
    ((k ≠ .readPoll ∧ ∃ addr byte, q.trace = [.write addr byte false] ∧ q.result = some .busError) ∨
     (∃ addr byte r fs, AllNotReady fs ∧
        q.trace = opening k addr byte r ++ polls addr fs ++ [.read addr none] ∧ q.result = some .busError) ∨
     (∃ addr byte r fs f, AllNotReady fs ∧ FrameReady f ∧
        q.trace = opening k addr byte r ++ polls addr fs ++ [.read addr (some f)] ∧
        ∃ r', q.result = some (endResult k r' f)))

/-- The trace is in the order of R132 for the sequence that was started, as far as the phase says it has come, and there
is no result before the end. -/
def InOrder (q : Sequencer) : Prop :=
  match q.phase with
  | .idle => (q.started = none ∧ q.trace = [] ∧ q.result = none) ∨ Ended q
  | .requested k _ _ => q.started = some k ∧ k ≠ .readPoll ∧ q.trace = [] ∧ q.result = none
  | .settling k addr ms =>
    q.started = some k ∧ k ≠ .readPoll ∧ q.result = none ∧
      ∃ byte r, ms = settleSleep k r ∧ q.trace = [.write addr byte true]
  | .reading k addr =>
    q.started = some k ∧ q.result = none ∧
      ∃ byte r fs, AllNotReady fs ∧ q.trace = opening k addr byte r ++ polls addr fs
  | .polling k addr ms =>
    q.started = some k ∧ q.result = none ∧ ms = Config.pollInterval ∧
      ∃ byte r fs f, AllNotReady fs ∧ ready (frameStatus f) = false ∧
        q.trace = opening k addr byte r ++ polls addr fs ++ [.read addr (some f)]
  | .done => Ended q

/-- A request that runs no command and asserts no reset: what the sequencer does by itself. -/
def isSequencerRequest : Event → Bool
  | .command _ => false
  | .reset _ _ => false
  | .start _ => true
  | .proceed => true
  | .await => true

/-! ## What a command word does, in the spec's own closed forms

These say the same as the meanings of Machine/ in the form the spec's tables and laws give, and not in the form of its
pseudocode: a concatenation where the encoder shifts and ORs, an exact integer product where the decoder multiplies in
32 bits. -/

/-- The state after a word that is answered `ILLEGAL` (30_encoding.md R74). -/
def illegalAnswered (s : State) : State := { s with response := some ⟨.illegal, 0#32⟩ }

/-- The word is answered `ILLEGAL`, and nothing else changes, in every state it is presented in. -/
def AnsweredIllegal (w : Word) : Prop := ∀ s : State, step (s.present w) = .next (illegalAnswered s)

/-- `{start, chan, mode, res, gain}` (30_encoding.md R61, R66). -/
def controlFields (c : Cfg) : Byte :=
  (match c.mode with | .oneShot => 1#1 | .continuous => 0#1) ++ c.chan ++ c.mode.bit ++ c.res.code ++ c.gain

/-- `{0, ADDR, control byte}` (30_encoding.md R78). -/
def imageFields (c : Cfg) : Word := 0#16 ++ c.addr ++ controlFields c

/-- The largest code of a resolution (10_state.md R34). -/
def topCode : Resolution → Int
  | .r12 => 2047
  | .r14 => 8191
  | .r16 => 32767

/-- The smallest code of a resolution (10_state.md R34). -/
def bottomCode : Resolution → Int
  | .r12 => -2048
  | .r14 => -8192
  | .r16 => -32768

/-- `2^bits` of a resolution (10_state.md R34). -/
def divisor : Resolution → Int
  | .r12 => 4096
  | .r14 => 16384
  | .r16 => 65536

/-- The settle delay of a resolution in milliseconds (10_state.md R34). -/
def settleMs : Resolution → Nat
  | .r12 => 4
  | .r14 => 15
  | .r16 => 57

/-- The voltage decoder over the integers (44_voltage_decoder.md R141): the exact product, the quotient truncated
toward zero. -/
def exactVoltage (r : Resolution) (raw : Sample) : Response :=
  if raw.toInt = topCode r then ⟨.overRange, 0#32⟩
  else if raw.toInt = bottomCode r then ⟨.underRange, 0#32⟩
  else ⟨.ok, BitVec.ofInt 32 (Int.tdiv (raw.toInt * 4096) (divisor r))⟩

/-- The ready gate before the voltage decoder (44_voltage_decoder.md R142). -/
def exactMeasure (r : Resolution) (hi lo st : Byte) : Response :=
  if st.getLsbD 7 then ⟨.notReady, 0#32⟩ else exactVoltage r (hi ++ lo)

/-- The opcodes of no command, as 30_encoding.md R74 case 1 lists them. -/
def outsideTheMap (op : Nat) : Prop :=
  op = 0x00 ∨ (0x08 ≤ op ∧ op ≤ 0x0F) ∨ (0x16 ≤ op ∧ op ≤ 0x1F) ∨ (0x22 ≤ op ∧ op ≤ 0x2F) ∨ 0x32 ≤ op

/-- For each opcode, the bits of `arg` that it does not use (30_encoding.md R73, R74 case 2). -/
def unusedArgBits : List (Byte × BitVec 24) :=
  [ (0x01#8, 0xFFFE00#24), (0x02#8, 0xFFFFFC#24), (0x03#8, 0xFFFFFC#24), (0x04#8, 0xFFFFFC#24),
    (0x05#8, 0xFFFFFC#24), (0x06#8, 0xFFFFFE#24), (0x07#8, 0xFFFFFF#24), (0x10#8, 0xFFFFFF#24),
    (0x11#8, 0xFFFFFF#24), (0x12#8, 0xFFFFFF#24), (0x13#8, 0xFFFFFF#24), (0x14#8, 0xFFFFFF#24),
    (0x15#8, 0xFFFF00#24), (0x20#8, 0xFFFF00#24), (0x30#8, 0xFF0000#24) ]

/-- The register that a single-register configuration command writes (40_configuration.md R98). -/
inductive ConfigRegister where
  | mode
  | chan
  | res
  | gain
deriving DecidableEq, Repr

/-- The one register the command writes, for the five commands of R98 law 1. -/
def registerOf : Instr → Option ConfigRegister
  | .withResolution _ => some .res
  | .withGain _ => some .gain
  | .withChannel _ => some .chan
  | .setChannel _ => some .chan
  | .setMode _ => some .mode
  | _ => none

/-- The answer of a command that changes nothing. -/
def answering (c : Cfg) (data : Word) : Cfg × Response := (c, ⟨.ok, data⟩)

/-- The answer of a builder command. -/
def building (c : Cfg) : Cfg × Response := (c, ⟨.ok, imageFields c⟩)

/-- The block as a function of the configuration and the word, without decoding to an instruction: the words of the
opcode map by mask, match and constraint, and `ILLEGAL` for every other (30_encoding.md R71, R72, R74). -/
def blockFunction (c : Cfg) (w : Word) : Cfg × Response :=
  if w &&& 0xFFFFFE00#32 = 0x01000000#32 then
    building ⟨w.extractLsb' 0 8, if w.getLsbD 8 then .continuous else .oneShot, 0#2, .r12, 0#2⟩
  else if w = 0x02000000#32 then building { c with res := .r12 }
  else if w = 0x02000001#32 then building { c with res := .r14 }
  else if w = 0x02000002#32 then building { c with res := .r16 }
  else if w &&& 0xFFFFFFFC#32 = 0x03000000#32 then building { c with gain := w.extractLsb' 0 2 }
  else if w &&& 0xFFFFFFFC#32 = 0x04000000#32 then building { c with chan := w.extractLsb' 0 2 }
  else if w &&& 0xFFFFFFFC#32 = 0x05000000#32 then answering { c with chan := w.extractLsb' 0 2 } 0#32
  else if w = 0x06000000#32 then answering { c with mode := .oneShot } 0#32
  else if w = 0x06000001#32 then answering { c with mode := .continuous } 0#32
  else if w = 0x07000000#32 then answering c (0#24 ++ c.addr)
  else if w = 0x10000000#32 then answering c (0#24 ++ controlFields c)
  else if w = 0x11000000#32 then answering c (BitVec.ofNat 32 (settleMs c.res))
  else if w = 0x12000000#32 then answering c (match c.res with | .r12 => 12#32 | .r14 => 14#32 | .r16 => 16#32)
  else if w = 0x13000000#32 then answering c (BitVec.ofInt 32 (topCode c.res))
  else if w = 0x14000000#32 then answering c (BitVec.ofInt 32 (bottomCode c.res))
  else if w &&& 0xFFFFFF00#32 = 0x15000000#32 ∧ w.extractLsb' 2 2 ≠ 3#2 then
    answering c (0#15 ++ w.extractLsb' 7 1 ++ 0#2 ++ w.extractLsb' 5 2 ++ 0#3 ++ w.extractLsb' 4 1 ++ 0#2
      ++ w.extractLsb' 2 2 ++ 0#2 ++ w.extractLsb' 0 2)
  else if w &&& 0xFFFFFF00#32 = 0x20000000#32 then answering c (0#23 ++ ~~~(w.extractLsb' 7 1) ++ w.extractLsb' 0 8)
  else if w &&& 0xFF000000#32 = 0x21000000#32 then
    answering c (0#7 ++ ~~~(w.extractLsb' 7 1) ++ w.extractLsb' 0 8 ++ w.extractLsb' 8 16)
  else if w &&& 0xFFFF0000#32 = 0x30000000#32 then (c, exactVoltage c.res (w.extractLsb' 0 16))
  else if w &&& 0xFF000000#32 = 0x31000000#32 then
    (c, exactMeasure c.res (w.extractLsb' 16 8) (w.extractLsb' 8 8) (w.extractLsb' 0 8))
  else (c, ⟨.illegal, 0#32⟩)

end Sys2Proof.Safety
end

