-- ==== Sys2Proof/Certificates/Slice0/Obligations.lean ====
section
/-! DEFINITION. The statements for the provers. Each names the rule of spec/ it formalises; one whose clause rests on an
inference or on a choice of the model says so. -/

open Sys2Proof Sys2Proof.Machine Sys2Proof.Safety

/-! ## The configuration commands (40_configuration.md) -/

/-- R91: the encoding of `CREATE`, its five writes and its image, and its illegal words. -/
def Obligations.CreateWritesAllFiveRegisters : Prop :=
  (∀ (addr : Byte) (mode : Mode),
    decode (0x01000000#32 ||| (mode.bit.setWidth 32 <<< 8) ||| addr.setWidth 32) = .ok (.create addr mode)) ∧
  (∀ (addr : Byte) (mode : Mode) (s : State),
    exec (.create addr mode) s = .next { s with
      cfg := ⟨addr, mode, 0#2, .r12, 0#2⟩
      response := some ⟨.ok, imageFields ⟨addr, mode, 0#2, .r12, 0#2⟩⟩ }) ∧
  (∀ w : Word, w.extractLsb' 24 8 = 0x01#8 → w.extractLsb' 9 15 ≠ 0#15 → AnsweredIllegal w)

/-- R92: the encoding of `WITH_RESOLUTION`, its write and its image for the three legal codes, and `ILLEGAL` for the
reserved code and for unused bits. -/
def Obligations.WithResolutionWritesRes : Prop :=
  (∀ r : Resolution, decode (0x02000000#32 ||| r.code.setWidth 32) = .ok (.withResolution r.code)) ∧
  (∀ (r : Resolution) (s : State),
    exec (.withResolution r.code) s = .next { s with
      cfg := { s.cfg with res := r }
      response := some ⟨.ok, imageFields { s.cfg with res := r }⟩ }) ∧
  (∀ s : State, exec (.withResolution 3#2) s = .next (illegalAnswered s)) ∧
  AnsweredIllegal 0x02000003#32 ∧
  (∀ w : Word, w.extractLsb' 24 8 = 0x02#8 → w.extractLsb' 2 22 ≠ 0#22 → AnsweredIllegal w)

/-- R93: the encoding of `WITH_GAIN`, its write and its image, and its illegal words. -/
def Obligations.WithGainWritesGain : Prop :=
  (∀ gain : BitVec 2, decode (0x03000000#32 ||| gain.setWidth 32) = .ok (.withGain gain)) ∧
  (∀ (gain : BitVec 2) (s : State),
    exec (.withGain gain) s = .next { s with
      cfg := { s.cfg with gain := gain }
      response := some ⟨.ok, imageFields { s.cfg with gain := gain }⟩ }) ∧
  (∀ w : Word, w.extractLsb' 24 8 = 0x03#8 → w.extractLsb' 2 22 ≠ 0#22 → AnsweredIllegal w)

/-- R94: the encoding of `WITH_CHANNEL`, its write and its image, and its illegal words. -/
def Obligations.WithChannelWritesChan : Prop :=
  (∀ chan : BitVec 2, decode (0x04000000#32 ||| chan.setWidth 32) = .ok (.withChannel chan)) ∧
  (∀ (chan : BitVec 2) (s : State),
    exec (.withChannel chan) s = .next { s with
      cfg := { s.cfg with chan := chan }
      response := some ⟨.ok, imageFields { s.cfg with chan := chan }⟩ }) ∧
  (∀ w : Word, w.extractLsb' 24 8 = 0x04#8 → w.extractLsb' 2 22 ≠ 0#22 → AnsweredIllegal w)

/-- R95: the encoding of `SET_CHANNEL`, its write with no data in the answer, its agreement with `WITH_CHANNEL` on the
registers, and its illegal words. -/
def Obligations.SetChannelWritesChan : Prop :=
  (∀ chan : BitVec 2, decode (0x05000000#32 ||| chan.setWidth 32) = .ok (.setChannel chan)) ∧
  (∀ (chan : BitVec 2) (s : State),
    exec (.setChannel chan) s = .next { s with
      cfg := { s.cfg with chan := chan }
      response := some ⟨.ok, 0#32⟩ }) ∧
  (∀ (chan : BitVec 2) (s : State), ∃ t u : State,
    exec (.setChannel chan) s = .next t ∧ exec (.withChannel chan) s = .next u ∧ t.cfg = u.cfg) ∧
  (∀ w : Word, w.extractLsb' 24 8 = 0x05#8 → w.extractLsb' 2 22 ≠ 0#22 → AnsweredIllegal w)

/-- R96: the encoding of `SET_MODE`, its write with no data in the answer, the two bits of the next control byte that
follow it, and its illegal words. -/
def Obligations.SetModeWritesMode : Prop :=
  (∀ mode : Mode, decode (0x06000000#32 ||| mode.bit.setWidth 32) = .ok (.setMode mode)) ∧
  (∀ (mode : Mode) (s : State),
    exec (.setMode mode) s = .next { s with
      cfg := { s.cfg with mode := mode }
      response := some ⟨.ok, 0#32⟩ }) ∧
  (∀ (mode : Mode) (c : Cfg),
    (cb { c with mode := mode }).getLsbD 4 = decide (mode = .continuous) ∧
    (cb { c with mode := mode }).getLsbD 7 = decide (mode = .oneShot) ∧
    ∀ k < 8, k ≠ 4 → k ≠ 7 → (cb { c with mode := mode }).getLsbD k = (cb c).getLsbD k) ∧
  (∀ w : Word, w.extractLsb' 24 8 = 0x06#8 → w.extractLsb' 1 23 ≠ 0#23 → AnsweredIllegal w)

/-- R97: the encoding of `GET_ADDR`, its answer, all eight bits of `ADDR`, and its illegal words. -/
def Obligations.GetAddrAnswersAddr : Prop :=
  decode 0x07000000#32 = .ok .getAddr ∧
  (∀ s : State, exec .getAddr s = .next { s with response := some ⟨.ok, 0#24 ++ s.cfg.addr⟩ }) ∧
  (∀ w : Word, w.extractLsb' 24 8 = 0x07#8 → w.extractLsb' 0 24 ≠ 0#24 → AnsweredIllegal w)

/-! ## The control-byte encoder and the lookups (41_control_encoder.md) -/

/-- R101: the encoding of `CONTROL_BYTE`, its answer as a concatenation of fields and as the OR of the shifted fields,
and its illegal words. -/
def Obligations.ControlByteAnswersTheFields : Prop :=
  decode 0x10000000#32 = .ok .controlByte ∧
  (∀ s : State, exec .controlByte s = .next { s with response := some ⟨.ok, 0#24 ++ controlFields s.cfg⟩ }) ∧
  (∀ c : Cfg, controlFields c =
    (match c.mode with | .oneShot => 0x80#8 | .continuous => 0x00#8) ||| (c.chan.setWidth 8 <<< 5)
      ||| (c.mode.bit.setWidth 8 <<< 4) ||| (c.res.code.setWidth 8 <<< 2) ||| c.gain.setWidth 8) ∧
  (∀ w : Word, w.extractLsb' 24 8 = 0x10#8 → w.extractLsb' 0 24 ≠ 0#24 → AnsweredIllegal w)

/-- R102: the encoding of `SETTLE_DELAY`, its answer at each resolution, the order of the three values, and its
illegal words. -/
def Obligations.SettleDelayAnswersMilliseconds : Prop :=
  decode 0x11000000#32 = .ok .settleDelay ∧
  (∀ s : State, exec .settleDelay s = .next { s with
    response := some ⟨.ok, match s.cfg.res with | .r12 => 4#32 | .r14 => 15#32 | .r16 => 57#32⟩ }) ∧
  (settle .r12 < settle .r14 ∧ settle .r14 < settle .r16) ∧
  (∀ w : Word, w.extractLsb' 24 8 = 0x11#8 → w.extractLsb' 0 24 ≠ 0#24 → AnsweredIllegal w)

/-- R103: the encoding of `RES_BITS`, its answer at each resolution, the form 12 + 2 × `RES`, and its illegal words.
-/
def Obligations.ResBitsAnswersTheBitCount : Prop :=
  decode 0x12000000#32 = .ok .resBits ∧
  (∀ s : State, exec .resBits s = .next { s with
    response := some ⟨.ok, match s.cfg.res with | .r12 => 12#32 | .r14 => 14#32 | .r16 => 16#32⟩ }) ∧
  (∀ r : Resolution, bitsOf r = 12 + 2 * r.code.toNat) ∧
  (∀ w : Word, w.extractLsb' 24 8 = 0x12#8 → w.extractLsb' 0 24 ≠ 0#24 → AnsweredIllegal w)

/-- R104: the encoding of `MAX_CODE`, its answer at each resolution, and its illegal words. -/
def Obligations.MaxCodeAnswersTheLargestCode : Prop :=
  decode 0x13000000#32 = .ok .maxCode ∧
  (∀ s : State, exec .maxCode s = .next { s with response := some ⟨.ok, BitVec.ofInt 32 (topCode s.cfg.res)⟩ }) ∧
  (∀ r : Resolution, topCode r = 2 ^ (bitsOf r - 1) - 1) ∧
  (∀ w : Word, w.extractLsb' 24 8 = 0x13#8 → w.extractLsb' 0 24 ≠ 0#24 → AnsweredIllegal w)

/-- R105: the encoding of `MIN_CODE`, its answer at each resolution, and its illegal words. -/
def Obligations.MinCodeAnswersTheSmallestCode : Prop :=
  decode 0x14000000#32 = .ok .minCode ∧
  (∀ s : State, exec .minCode s = .next { s with response := some ⟨.ok, BitVec.ofInt 32 (bottomCode s.cfg.res)⟩ }) ∧
  (∀ r : Resolution, bottomCode r = -(2 ^ (bitsOf r - 1)) ∧ bottomCode r = -topCode r - 1) ∧
  (∀ w : Word, w.extractLsb' 24 8 = 0x14#8 → w.extractLsb' 0 24 ≠ 0#24 → AnsweredIllegal w)

/-- R106, R79: the encoding of `CB_FIELDS`, each field of its answer and zero everywhere else, for every byte whose
resolution code is legal; `ILLEGAL` for the reserved code and for unused bits. -/
def Obligations.CbFieldsDecodesEachField : Prop :=
  (∀ b : Byte, b.extractLsb' 2 2 ≠ 3#2 → decode (0x15000000#32 ||| b.setWidth 32) = .ok (.cbFields b)) ∧
  (∀ (b : Byte) (s : State), b.extractLsb' 2 2 ≠ 3#2 →
    ∃ d : Word, exec (.cbFields b) s = .next { s with response := some ⟨.ok, d⟩ } ∧
      d.extractLsb' 0 2 = b.extractLsb' 0 2 ∧ d.extractLsb' 4 2 = b.extractLsb' 2 2 ∧
      d.getLsbD 8 = b.getLsbD 4 ∧ d.extractLsb' 12 2 = b.extractLsb' 5 2 ∧ d.getLsbD 16 = b.getLsbD 7 ∧
      d &&& ~~~0x00013133#32 = 0#32) ∧
  (∀ (b : Byte) (s : State), b.extractLsb' 2 2 = 3#2 → exec (.cbFields b) s = .next (illegalAnswered s)) ∧
  (∀ b : Byte, b.extractLsb' 2 2 = 3#2 → AnsweredIllegal (0x15000000#32 ||| b.setWidth 32)) ∧
  (∀ w : Word, w.extractLsb' 24 8 = 0x15#8 → w.extractLsb' 8 16 ≠ 0#16 → AnsweredIllegal w)

/-- R61, R66: the layout of the control byte. The start bit is 1 exactly in one-shot mode, bit 7 is the complement of
bit 4, and the fields are the registers. -/
def Obligations.ControlByteLayout : Prop :=
  ∀ c : Cfg,
    cb c = controlFields c ∧
    ((cb c).getLsbD 7 = true ↔ c.mode = .oneShot) ∧
    ((cb c).getLsbD 4 = true ↔ c.mode = .continuous) ∧
    (cb c).extractLsb' 5 2 = c.chan ∧ (cb c).extractLsb' 2 2 = c.res.code ∧ (cb c).extractLsb' 0 2 = c.gain

/-- Derived from 41_control_encoder.md section 2 (R101 corner cases 2 and 3): a byte is some configuration's control
byte exactly when bit 7 is the complement of bit 4 and bits 3–2 are not the reserved code. -/
def Obligations.ControlByteValues : Prop :=
  ∀ b : Byte, (∃ c : Cfg, cb c = b) ↔ (b.getLsbD 7 = !b.getLsbD 4) ∧ b.extractLsb' 2 2 ≠ 3#2

/-- R107: encoding a configuration and decoding the byte recovers the four selections, so the byte determines them. -/
def Obligations.ControlByteRoundTrip : Prop :=
  (∀ (c : Cfg) (s : State), ∃ d : Word,
    exec (.cbFields (cb c)) s = .next { s with response := some ⟨.ok, d⟩ } ∧
    d.extractLsb' 0 2 = c.gain ∧ d.extractLsb' 4 2 = c.res.code ∧ d.extractLsb' 8 1 = c.mode.bit ∧
    d.extractLsb' 12 2 = c.chan ∧ d.extractLsb' 16 1 = 1#1 - c.mode.bit) ∧
  (∀ c c' : Cfg, cb c = cb c' → c.mode = c'.mode ∧ c.chan = c'.chan ∧ c.res = c'.res ∧ c.gain = c'.gain)

/-- R108: the four lookups and bits 3–2 of the control byte agree with the fixed table. -/
def Obligations.LookupsAgreeWithTheTable : Prop :=
  ∀ s : State, ∃ d : Word,
    exec .controlByte s = .next { s with response := some ⟨.ok, d⟩ } ∧
    ((d.extractLsb' 2 2 = 0#2 ∧ exec .resBits s = .next { s with response := some ⟨.ok, 12#32⟩ } ∧
        exec .maxCode s = .next { s with response := some ⟨.ok, 0x000007FF#32⟩ } ∧
        exec .minCode s = .next { s with response := some ⟨.ok, 0xFFFFF800#32⟩ } ∧
        exec .settleDelay s = .next { s with response := some ⟨.ok, 4#32⟩ } ∧ s.cfg.res = .r12) ∨
     (d.extractLsb' 2 2 = 1#2 ∧ exec .resBits s = .next { s with response := some ⟨.ok, 14#32⟩ } ∧
        exec .maxCode s = .next { s with response := some ⟨.ok, 0x00001FFF#32⟩ } ∧
        exec .minCode s = .next { s with response := some ⟨.ok, 0xFFFFE000#32⟩ } ∧
        exec .settleDelay s = .next { s with response := some ⟨.ok, 15#32⟩ } ∧ s.cfg.res = .r14) ∨
     (d.extractLsb' 2 2 = 2#2 ∧ exec .resBits s = .next { s with response := some ⟨.ok, 16#32⟩ } ∧
        exec .maxCode s = .next { s with response := some ⟨.ok, 0x00007FFF#32⟩ } ∧
        exec .minCode s = .next { s with response := some ⟨.ok, 0xFFFF8000#32⟩ } ∧
        exec .settleDelay s = .next { s with response := some ⟨.ok, 57#32⟩ } ∧ s.cfg.res = .r16))

/-! ## The status decoder (42_status_decoder.md) -/

/-- R111: the encoding of `STATUS`, its answer for every byte, and its illegal words. -/
def Obligations.StatusAnswersByteAndReady : Prop :=
  (∀ b : Byte, decode (0x20000000#32 ||| b.setWidth 32) = .ok (.status b)) ∧
  (∀ (b : Byte) (s : State),
    exec (.status b) s = .next { s with response := some ⟨.ok, 0#23 ++ ~~~(b.extractLsb' 7 1) ++ b⟩ }) ∧
  (∀ b : Byte, ready b = false ↔ b.getLsbD 7 = true) ∧
  (∀ w : Word, w.extractLsb' 24 8 = 0x20#8 → w.extractLsb' 8 16 ≠ 0#16 → AnsweredIllegal w)

/-- R112: the encoding of `UNPACK` and its answer for every frame; every word of its opcode is legal. -/
def Obligations.UnpackSplitsTheFrame : Prop :=
  (∀ hi lo st : Byte, decode (0x21000000#32 ||| (hi.setWidth 32 <<< 16) ||| (lo.setWidth 32 <<< 8) ||| st.setWidth 32) =
    .ok (.unpack (hi ++ lo ++ st))) ∧
  (∀ (hi lo st : Byte) (s : State),
    exec (.unpack (hi ++ lo ++ st)) s = .next { s with
      response := some ⟨.ok, 0#7 ++ ~~~(st.extractLsb' 7 1) ++ st ++ (hi ++ lo)⟩ }) ∧
  (∀ w : Word, w.extractLsb' 24 8 = 0x21#8 → decode w = .ok (.unpack (w.extractLsb' 0 24)))

/-! ## The voltage decoder (44_voltage_decoder.md) -/

/-- R141: the encoding of `CALC_VOLTAGE`, its answer for every sample at every resolution, over the integers, and its
illegal words. -/
def Obligations.CalcVoltageConvertsExactly : Prop :=
  (∀ raw : Sample, decode (0x30000000#32 ||| raw.setWidth 32) = .ok (.calcVoltage raw)) ∧
  (∀ (raw : Sample) (s : State),
    exec (.calcVoltage raw) s = .next { s with response := some (exactVoltage s.cfg.res raw) }) ∧
  (∀ w : Word, w.extractLsb' 24 8 = 0x30#8 → w.extractLsb' 16 8 ≠ 0#8 → AnsweredIllegal w)

/-- R142: the encoding of `MEASURE` and its answer for every frame: the ready gate before the voltage decoder; every
word of its opcode is legal. -/
def Obligations.MeasureGatesThenConverts : Prop :=
  (∀ hi lo st : Byte, decode (0x31000000#32 ||| (hi.setWidth 32 <<< 16) ||| (lo.setWidth 32 <<< 8) ||| st.setWidth 32) =
    .ok (.measure (hi ++ lo ++ st))) ∧
  (∀ (hi lo st : Byte) (s : State),
    exec (.measure (hi ++ lo ++ st)) s = .next { s with response := some (exactMeasure s.cfg.res hi lo st) }) ∧
  (∀ w : Word, w.extractLsb' 24 8 = 0x31#8 → decode w = .ok (.measure (w.extractLsb' 0 24)))

/-- Derived from 44_voltage_decoder.md section 2 (R142 corner case 2): `MEASURE` of a ready frame answers what
`CALC_VOLTAGE` of the unpacked sample answers; `UNPACK` says whether it is ready. -/
def Obligations.MeasureIsUnpackThenCalcVoltage : Prop :=
  ∀ (f : Frame) (s : State), ∃ d : Word,
    exec (.unpack f) s = .next { s with response := some ⟨.ok, d⟩ } ∧
    (d.getLsbD 24 = true → exec (.measure f) s = exec (.calcVoltage (d.extractLsb' 0 16)) s) ∧
    (d.getLsbD 24 = false → exec (.measure f) s = .next { s with response := some ⟨.notReady, 0#32⟩ })

/-- Derived from 44_voltage_decoder.md section 3 (R144, R145): the 32-bit product is the exact integer product, and
the closed form of the voltage at each resolution, with k = 1, 4, 16. -/
def Obligations.VoltageClosedForms : Prop :=
  (∀ raw : Sample, (product raw).toInt = raw.toInt * 4096) ∧
  (∀ raw : Sample,
    millivolts .r12 raw = raw.toInt ∧
    millivolts .r14 raw = Int.tdiv raw.toInt 4 ∧
    millivolts .r16 raw = Int.tdiv raw.toInt 16)

/-- Derived from 44_voltage_decoder.md section 3 (R145 (1), R143): odd symmetry, wherever both samples answer `OK`. -/
def Obligations.VoltageOddSymmetry : Prop :=
  ∀ (r : Resolution) (x y : Sample) (a b : Word), y.toInt = -x.toInt →
    volt r x = ⟨.ok, a⟩ → volt r y = ⟨.ok, b⟩ → b.toInt = -a.toInt

/-- Derived from 44_voltage_decoder.md section 3 (R145 (2), (3)): monotone, and linear up to the truncation. -/
def Obligations.VoltageMonotoneAndLinear : Prop :=
  (∀ (r : Resolution) (x y : Sample) (a b : Word), x.toInt ≤ y.toInt →
    volt r x = ⟨.ok, a⟩ → volt r y = ⟨.ok, b⟩ → a.toInt ≤ b.toInt) ∧
  (∀ (r : Resolution) (x : Sample) (a : Word), volt r x = ⟨.ok, a⟩ →
    |a.toInt * (divisor r / 4096) - x.toInt| < divisor r / 4096)

/-- Derived from 44_voltage_decoder.md section 3 (R145 (4)): within the effective range a voltage never reaches ±2048
mV. -/
def Obligations.VoltageWithinFullScale : Prop :=
  ∀ (r : Resolution) (x : Sample) (a : Word), InEffectiveRange r x → volt r x = ⟨.ok, a⟩ →
    -2048 < a.toInt ∧ a.toInt < 2048

/-- Derived from 60_exceptions.md section 2 (R152, R153) and 44_voltage_decoder.md R141: the two saturation answers
are given for the two extreme codes and for nothing else, so exactly two inputs fail at each resolution. -/
def Obligations.SaturationAtTheExtremeCodesOnly : Prop :=
  ∀ (raw : Sample) (s : State), ∃ r : Response,
    exec (.calcVoltage raw) s = .next { s with response := some r } ∧
    (r.code = .overRange ↔ raw.toInt = topCode s.cfg.res) ∧
    (r.code = .underRange ↔ raw.toInt = bottomCode s.cfg.res) ∧
    (r.code = .ok ↔ raw ≠ maxcode s.cfg.res ∧ raw ≠ mincode s.cfg.res)

/-! ## The whole block -/

/-- R71: the block is one total function of the configuration and the word, here written out by masks from the opcode
map; outside a running sequence the machine does exactly that to a presented word (the list of requests it is presented
in is the model's choice, notes/assumptions/2.md). -/
def Obligations.BlockIsTheTotalFunction : Prop :=
  ∀ (s : State) (w : Word), s.seq.phase.running = false →
    step (s.present w) = .next { s with
      cfg := (blockFunction s.cfg w).1
      response := some (blockFunction s.cfg w).2 }

/-- R74: a word is answered `ILLEGAL` with data 0, and changes nothing, in exactly three cases: an opcode outside the
map, a bit of `arg` that the opcode does not use, a reserved operand value. -/
def Obligations.IllegalWordsAreExactlyThreeCases : Prop :=
  ∀ w : Word, AnsweredIllegal w ↔
    outsideTheMap (w.extractLsb' 24 8).toNat ∨
    (∃ p ∈ unusedArgBits, p.1 = w.extractLsb' 24 8 ∧ w.extractLsb' 0 24 &&& p.2 ≠ 0#24) ∨
    (w = 0x02000003#32 ∨ (w &&& 0xFFFFFF00#32 = 0x15000000#32 ∧ w.extractLsb' 2 2 = 3#2))

/-- Derived from 60_exceptions.md sections 2 and 3 (R151, R157): every command answers in one step; an answer other
than `OK` carries data 0 and is the command's only effect. -/
def Obligations.ErrorAnswersChangeNothingElse : Prop :=
  ∀ (i : Instr) (s : State), ∃ (t : State) (r : Response),
    exec i s = .next t ∧ t.response = some r ∧
    (r.code ≠ .ok → r.data = 0#32 ∧ t = { s with response := some r })

/-- Derived from 60_exceptions.md section 2 (R151, R156, R158): no step puts `NOT_INITIALIZED` or `BUS_ERROR` on the
response port, and no sequence ends in `NOT_INITIALIZED`. -/
def Obligations.ReservedCodesAreNeverProduced : Prop :=
  (∀ s t : State,
    (∀ r, s.response = some r → r.code ≠ .notInitialized ∧ r.code ≠ .busError) →
    step s = .next t →
    ∀ r, t.response = some r → r.code ≠ .notInitialized ∧ r.code ≠ .busError) ∧
  (∀ q : SeqResult, q.code ≠ .notInitialized)

/-- Derived from 10_state.md section 2 and 40_configuration.md section 1: which command may change which register, and
that no command touches the bus, the sequencer or the caller's requests. -/
def Obligations.OnlyNamedCommandsWriteRegisters : Prop :=
  ∀ (i : Instr) (s t : State), exec i s = .next t →
    (t.cfg.addr ≠ s.cfg.addr → ∃ a m, i = .create a m) ∧
    (t.cfg.mode ≠ s.cfg.mode → (∃ a m, i = .create a m) ∨ ∃ m, i = .setMode m) ∧
    (t.cfg.chan ≠ s.cfg.chan → (∃ a m, i = .create a m) ∨ (∃ c, i = .withChannel c) ∨ ∃ c, i = .setChannel c) ∧
    (t.cfg.res ≠ s.cfg.res → (∃ a m, i = .create a m) ∨ ∃ r, i = .withResolution r) ∧
    (t.cfg.gain ≠ s.cfg.gain → (∃ a m, i = .create a m) ∨ ∃ g, i = .withGain g) ∧
    t.bus = s.bus ∧ t.seq = s.seq ∧ t.events = s.events

/-- Derived from 41_control_encoder.md section 1 (R100): the six encoder commands read the configuration or their
operand alone, write no register, and answer `OK`, or `ILLEGAL` for a reserved operand. -/
def Obligations.EncoderCommandsArePure : Prop :=
  ∀ (i : Instr) (s s' : State),
    (i = .controlByte ∨ i = .settleDelay ∨ i = .resBits ∨ i = .maxCode ∨ i = .minCode ∨ ∃ b, i = .cbFields b) →
    s.cfg = s'.cfg →
    ∃ r : Response, (WellFormed i → r.code = .ok) ∧ (¬ WellFormed i → r.code = .illegal) ∧
      exec i s = .next { s with response := some r } ∧ exec i s' = .next { s' with response := some r }

/-- R110: `STATUS` and `UNPACK` are functions of their operand alone, answer `OK` for every value of it, and change
nothing; of their words only a `STATUS` word with a non-zero unused bit is answered `ILLEGAL`. -/
def Obligations.StatusCommandsArePure : Prop :=
  (∀ b : Byte, ∃ d : Word, ∀ s : State, exec (.status b) s = .next { s with response := some ⟨.ok, d⟩ }) ∧
  (∀ f : Frame, ∃ d : Word, ∀ s : State, exec (.unpack f) s = .next { s with response := some ⟨.ok, d⟩ }) ∧
  (∀ w : Word, w.extractLsb' 24 8 = 0x20#8 → (AnsweredIllegal w ↔ w.extractLsb' 8 16 ≠ 0#16)) ∧
  (∀ w : Word, w.extractLsb' 24 8 = 0x21#8 → ¬ AnsweredIllegal w)

/-- Derived from 44_voltage_decoder.md sections 1 and 3 (R140, R146): the voltage commands read `RES` and no other
register (so not `GAIN`), write none, and give only the answers listed. -/
def Obligations.VoltageCommandsReadResOnly : Prop :=
  ∀ s s' : State, s.cfg.res = s'.cfg.res →
    (∀ raw : Sample, ∃ r : Response, (r.code = .ok ∨ r.code = .overRange ∨ r.code = .underRange) ∧
      exec (.calcVoltage raw) s = .next { s with response := some r } ∧
      exec (.calcVoltage raw) s' = .next { s' with response := some r }) ∧
    (∀ f : Frame, ∃ r : Response,
      (r.code = .ok ∨ r.code = .overRange ∨ r.code = .underRange ∨ r.code = .notReady) ∧
      exec (.measure f) s = .next { s with response := some r } ∧
      exec (.measure f) s' = .next { s' with response := some r })

/-- Derived from 40_configuration.md section 3 (R98 laws 1 and 2): two single-register commands commute when they
write different registers; when they write the same one, the later value stands. -/
def Obligations.ConfigurationCommandsCommute : Prop :=
  ∀ (i j : Instr) (p q : ConfigRegister) (s : State), registerOf i = some p → registerOf j = some q →
    WellFormed i → WellFormed j →
    ∃ ti tj tij tji : State,
      exec i s = .next ti ∧ exec j s = .next tj ∧ exec j ti = .next tij ∧ exec i tj = .next tji ∧
      (p ≠ q → tij.cfg = tji.cfg) ∧ (p = q → tij.cfg = tj.cfg)

/-- Derived from 40_configuration.md section 3 (R98 law 3): after `CREATE a, m`, any sequence of words none of which
is a `CREATE` leaves `ADDR` = a (the list of requests is the model's choice, notes/assumptions/2.md; the law for one
step is `AddrKeptByEveryOtherStep`). -/
def Obligations.AddrKeptUntilTheNextCreate : Prop :=
  ∀ (a : Byte) (m : Mode) (ws : List Word) (s : State),
    (∀ w ∈ ws, ∀ b k, decode w ≠ .ok (.create b k)) →
    ∃ t : State, runFor (ws.length + 1)
        (s.withEvents (.command (encode (.create a m)) :: ws.map Event.command)) = .next t ∧
      t.cfg.addr = a ∧ t.events = []

/-- Derived from 40_configuration.md section 3 (R98 law 4): every configuration is reached from every state by at most
four commands (the list of requests is the model's choice, notes/assumptions/2.md). -/
def Obligations.EveryConfigurationInFourCommands : Prop :=
  ∀ (s : State) (c : Cfg), ∃ ws : List Word, ws.length ≤ 4 ∧
    ∃ t : State, runFor ws.length (s.withEvents (ws.map Event.command)) = .next t ∧ t.cfg = c

/-! ## Encoding and the step -/

/-- Derived from 30_encoding.md section 5: decoding an encoded well-formed instruction gives it back, with every
operand at every value (30_encoding.md R70 to R73). -/
def Obligations.DecodeOfEncode : Prop :=
  ∀ i : Instr, WellFormed i → decode (encode i) = .ok i

/-- Derived from 30_encoding.md sections 5 and 6: a word that decodes is the encoding of the instruction it decodes
to, and that instruction is well-formed: each legal word has one meaning and each instruction one word. -/
def Obligations.EncodeOfDecode : Prop :=
  ∀ (w : Word) (i : Instr), decode w = .ok i → encode i = w ∧ WellFormed i

/-- Derived from 30_encoding.md section 5: words written out from the Encoding lines and examples of the rules decode
to the commands they stand for. -/
def Obligations.SampleWordsDecode : Prop :=
  decode 0x01000168#32 = .ok (.create 0x68#8 .continuous) ∧
  decode 0x02000002#32 = .ok (.withResolution 2#2) ∧
  decode 0x15000057#32 = .ok (.cbFields 0x57#8) ∧
  decode 0x21123456#32 = .ok (.unpack 0x123456#24) ∧
  decode 0x3000FC00#32 = .ok (.calcVoltage 0xFC00#16) ∧
  decode 0x31FC1994#32 = .ok (.measure 0xFC1994#24)

/-- Derived from 30_encoding.md section 5: a step runs the decoded instruction: when the oldest request is a word that
decodes to i, the step is `exec` of i on the state without that request, where the only other thing noted is a
configuration command in the middle of a sequence (the model's choice, notes/assumptions/7.md). -/
def Obligations.StepRunsTheDecodedInstruction : Prop :=
  (∀ (s : State) (w : Word) (rest : List Event) (i : Instr),
    s.events = .command w :: rest → decode w = .ok i →
    step s = exec i ((s.withEvents rest).noteCommand i)) ∧
  (∀ (s : State) (i : Instr),
    s.noteCommand i =
      if s.seq.phase.running = true ∧ writesConfiguration i = true
      then { s with seq := { s.seq with disturbed := true } } else s)

/-- Derived from 43_conversion_protocol.md sections 1 and 5: the step serves the oldest request of the caller; with
none, or when told to proceed or to await a running sequence, the sequencer moves; awaiting in `Done` takes the result
and the phase is `Idle` (43_conversion_protocol.md R120, R133). The MODEL's: the list of requests
(notes/assumptions/2.md); and, in the await-in-`Done` clause, which equates the whole next state, that the trace and the
result stay in `Idle` after the result is taken (notes/assumptions/9.md), that the port keeps its answer
(notes/assumptions/3.md), and that the flag of a disturbed sequence stays until the next start
(notes/assumptions/7.md). -/
def Obligations.StepServesTheOldestRequest : Prop :=
  (∀ s : State, s.events = [] → step s = advance s) ∧
  (∀ (s : State) (rest : List Event), s.events = .proceed :: rest → step s = advance (s.withEvents rest)) ∧
  (∀ (s : State) (rest : List Event), s.events = .await :: rest → s.seq.phase.running = true →
    step s = advance s) ∧
  (∀ (s : State) (rest : List Event), s.events = .await :: rest → s.seq.phase = .done →
    step s = .next ((s.withEvents rest).setPhase .idle))

/-- Derived from 30_encoding.md section 5: a word presented by `withFetchWord` is what the very next step runs. The
MODEL's: the list of requests the word stands in (notes/assumptions/2.md), the flag that `noteCommand` sets before
`exec` for a configuration command in the middle of a sequence (notes/assumptions/7.md), and the numbering of the
word's bits in `decodeTableWord` and `withFetchWord` (DEDUCED, notes/assumptions/16.md). -/
def Obligations.FetchWordRunsNext : Prop :=
  ∀ (s : State) (i : Instr), WellFormed i →
    step (s.withFetchWord 32 (encode i).toNat) = exec i (s.noteCommand i) ∧
    decodeTableWord 32 (encode i).toNat = some i

/-! ## Reset (10_state.md R32, 70_reset_and_hazards.md R170, R171) -/

/-- Derived from 70_reset_and_hazards.md section 1 (R170, R171): reset has exactly the effect of `CREATE` with the two
reset parameters on the registers, gives no response, puts the phase to `Idle`, and leaves the bus and the device alone;
power-on has the same effect on the block, for all values of the parameters, and the device's register then holds
channel 1, 12-bit and gain ×1. The MODEL's: that the port is empty after a reset (notes/assumptions/3.md), that a reset
in the middle of a sequence has this effect too (DEDUCED, notes/assumptions/14.md), and that the two bits of the
device's register that the spec leaves open are arguments (notes/assumptions/17.md). -/
def Obligations.ResetIsCreate : Prop :=
  (∀ (s : State) (addr : Byte) (mode : Mode) (rest : List Event), s.events = .reset addr mode :: rest →
    ∃ t u : State, step s = .next t ∧ exec (.create addr mode) s = .next u ∧
      t.cfg = u.cfg ∧ t.cfg = ⟨addr, mode, 0#2, .r12, 0#2⟩ ∧ t.response = none ∧ t.seq.phase = .idle ∧
      t.bus = s.bus ∧ t.events = rest) ∧
  (∀ (addr : Byte) (mode deviceMode : Mode) (start : BitVec 1),
    (State.resetWith addr mode deviceMode start).cfg = ⟨addr, mode, 0#2, .r12, 0#2⟩ ∧
    (State.resetWith addr mode deviceMode start).response = none ∧
    (State.resetWith addr mode deviceMode start).seq.phase = .idle ∧
    (State.resetWith addr mode deviceMode start).bus.control =
      start ++ 0#2 ++ deviceMode.bit ++ Resolution.r12.code ++ 0#2)

/-! ## The conversion protocol (43_conversion_protocol.md) -/

/-- Derived from 43_conversion_protocol.md section 2 (R122, R123): `SEQ_ONESHOT` transmits the control byte with the
start marker set, aborts when the write fails, and otherwise sleeps once for the settle delay plus the guard margin
before the first read. The MODEL's, in the equations for the whole next state: the port holds the answers of the
sequencer's own commands (notes/assumptions/3.md), a sleep is recorded when it ends (notes/assumptions/8.md), the start
clears the trace and the result (notes/assumptions/9.md), what the device's register holds after a failed write is a
free value (notes/assumptions/10.md), and the sleep leaves that register as it was (notes/assumptions/18.md). -/
def Obligations.OneShotRequestsAndSettles : Prop :=
  (∀ (s : State) (rest : List Event), s.events = .start .oneShot :: rest → s.seq.phase = .idle →
    s.cfg.mode = .oneShot →
    (cb s.cfg).getLsbD 7 = true ∧
    step s = .next { s with
      events := rest
      response := some ⟨.ok, 0#24 ++ controlFields s.cfg⟩
      seq := ⟨.requested .oneShot s.cfg.addr (cb s.cfg), some .oneShot, none, [], false⟩ }) ∧
  (∀ (s : State) (a b : Byte), s.events = [] → s.seq.phase = .requested .oneShot a b → s.seq.disturbed = false →
    (s.bus.nextAck = false → step s = .next { s with
      seq := ⟨.done, s.seq.started, some .busError, s.seq.trace ++ [.write a b false], false⟩
      bus := { s.bus with
        writeStub := s.bus.writeStub.tail, writes := s.bus.writes + 1
        control := Config.failedWrite s.bus.writes s.bus.control b } }) ∧
    (s.bus.nextAck = true → step s = .next { s with
      response := some ⟨.ok, BitVec.ofNat 32 (settleMs s.cfg.res)⟩
      seq := ⟨.settling .oneShot a (settleMs s.cfg.res + 2), s.seq.started, s.seq.result,
        s.seq.trace ++ [.write a b true], false⟩
      bus := { s.bus with
        writeStub := s.bus.writeStub.tail, writes := s.bus.writes + 1, control := b } })) ∧
  (∀ (s : State) (a : Byte) (ms : Nat), s.events = [] → s.seq.phase = .settling .oneShot a ms →
    s.seq.disturbed = false →
    step s = .next { s with
      seq := ⟨.reading .oneShot a, s.seq.started, s.seq.result, s.seq.trace ++ [.sleep ms], false⟩ })

/-- Derived from 43_conversion_protocol.md section 3 (R125): `SEQ_CONT_CONFIG` transmits the control byte without the
start marker, aborts when the write fails, sleeps for the settle delay with no margin, and then reads until a frame is
ready, whose sample is discarded. The MODEL's, in the equations for the whole next state: the port holds the answers of
the sequencer's own commands (notes/assumptions/3.md), a sleep is recorded when it ends (notes/assumptions/8.md), the
start clears the trace and the result (notes/assumptions/9.md), what the device's register holds after a failed write
is a free value (notes/assumptions/10.md), and a sleep leaves that register as it was (notes/assumptions/18.md). -/
def Obligations.ContinuousConfigurationWrite : Prop :=
  (∀ (s : State) (rest : List Event), s.events = .start .contConfig :: rest → s.seq.phase = .idle →
    s.cfg.mode = .continuous →
    (cb s.cfg).getLsbD 7 = false ∧
    step s = .next { s with
      events := rest
      response := some ⟨.ok, 0#24 ++ controlFields s.cfg⟩
      seq := ⟨.requested .contConfig s.cfg.addr (cb s.cfg), some .contConfig, none, [], false⟩ }) ∧
  (∀ (s : State) (a b : Byte), s.events = [] → s.seq.phase = .requested .contConfig a b → s.seq.disturbed = false →
    (s.bus.nextAck = false → step s = .next { s with
      seq := ⟨.done, s.seq.started, some .busError, s.seq.trace ++ [.write a b false], false⟩
      bus := { s.bus with
        writeStub := s.bus.writeStub.tail, writes := s.bus.writes + 1
        control := Config.failedWrite s.bus.writes s.bus.control b } }) ∧
    (s.bus.nextAck = true → step s = .next { s with
      response := some ⟨.ok, BitVec.ofNat 32 (settleMs s.cfg.res)⟩
      seq := ⟨.settling .contConfig a (settleMs s.cfg.res), s.seq.started, s.seq.result,
        s.seq.trace ++ [.write a b true], false⟩
      bus := { s.bus with
        writeStub := s.bus.writeStub.tail, writes := s.bus.writes + 1, control := b } })) ∧
  (∀ (s : State) (a : Byte) (ms : Nat), s.events = [] →
    (s.seq.phase = .settling .contConfig a ms ∨ s.seq.phase = .polling .contConfig a ms) → s.seq.disturbed = false →
    step s = .next { s with
      seq := ⟨.reading .contConfig a, s.seq.started, s.seq.result, s.seq.trace ++ [.sleep ms], false⟩ }) ∧
  (∀ (s : State) (a : Byte), s.events = [] → s.seq.phase = .reading .contConfig a → s.seq.disturbed = false →
    ∃ t : State, step s = .next t ∧ t.cfg = s.cfg ∧ t.seq.trace = s.seq.trace ++ [.read a s.nextFrame] ∧
      match s.nextFrame with
      | none => t.seq.phase = .done ∧ t.seq.result = some .busError
      | some f =>
        if f.getLsbD 7 then t.seq.phase = .polling .contConfig a 1 ∧ t.seq.result = s.seq.result
        else t.seq.phase = .done ∧ t.seq.result = some .okUnit)

/-- Derived from 43_conversion_protocol.md sections 2 and 4 (R124, R126): the read-and-poll loop of `SEQ_READ_POLL`
and of step 3 of `SEQ_ONESHOT`: a failed read ends it; the answer of `MEASURE` for the frame ends it with a voltage or
a saturation error, or, when not ready, makes it sleep 1 ms and read again. The MODEL's: the answer of `MEASURE` stands
on the caller's response port (notes/assumptions/3.md), a sleep is recorded when it ends (notes/assumptions/8.md), the
start clears the trace and the result (notes/assumptions/9.md), and a sleep leaves the device's register as it was
(notes/assumptions/18.md). -/
def Obligations.ReadAndPollLoop : Prop :=
  (∀ (s : State) (rest : List Event), s.events = .start .readPoll :: rest → s.seq.phase = .idle →
    ∃ t : State, step s = .next t ∧ t.cfg = s.cfg ∧ t.bus = s.bus ∧ t.events = rest ∧
      t.seq = ⟨.reading .readPoll s.cfg.addr, some .readPoll, none, [], false⟩) ∧
  (∀ (s : State) (q : Sequence) (a : Byte), s.events = [] → q ≠ .contConfig → s.seq.phase = .reading q a →
    s.seq.disturbed = false →
    ∃ t : State, step s = .next t ∧ t.cfg = s.cfg ∧ t.seq.trace = s.seq.trace ++ [.read a s.nextFrame] ∧
      match s.nextFrame with
      | none => t.seq.phase = .done ∧ t.seq.result = some .busError
      | some f =>
        t.response = some (exactMeasure s.cfg.res (f.extractLsb' 16 8) (f.extractLsb' 8 8) (f.extractLsb' 0 8)) ∧
        match exactMeasure s.cfg.res (f.extractLsb' 16 8) (f.extractLsb' 8 8) (f.extractLsb' 0 8) with
        | ⟨.ok, mv⟩ => t.seq.phase = .done ∧ t.seq.result = some (.okVoltage mv)
        | ⟨.overRange, _⟩ => t.seq.phase = .done ∧ t.seq.result = some .overRange
        | ⟨.underRange, _⟩ => t.seq.phase = .done ∧ t.seq.result = some .underRange
        | _ => t.seq.phase = .polling q a 1 ∧ t.seq.result = s.seq.result) ∧
  (∀ (s : State) (q : Sequence) (a : Byte) (ms : Nat), s.events = [] → q ≠ .contConfig →
    s.seq.phase = .polling q a ms → s.seq.disturbed = false →
    step s = .next { s with
      seq := ⟨.reading q a, s.seq.started, s.seq.result, s.seq.trace ++ [.sleep ms], false⟩ })

/-- Derived from 20_memory.md sections 1 to 3 (R43, R45, R46): a read that delivers exactly three bytes gives the
frame with the first byte on top; a read that fails or delivers another number of bytes is a bus error. -/
def Obligations.FramesComeFromThreeBytes : Prop :=
  (∀ hi lo st : Byte, ∃ f : Frame, frameOf (.bytes [hi, lo, st]) = some f ∧
    frameRaw f = hi ++ lo ∧ frameStatus f = st ∧ f = hi ++ lo ++ st) ∧
  (∀ bs : List Byte, bs.length ≠ 3 → frameOf (.bytes bs) = none) ∧
  frameOf .busError = none ∧
  (∀ (s : State) (q : Sequence) (a : Byte), s.events = [] → s.seq.phase = .reading q a → s.seq.disturbed = false →
    frameOf (s.bus.answerAt 0) = none →
    ∃ t : State, step s = .next t ∧ t.seq.phase = .done ∧ t.seq.result = some .busError ∧ t.cfg = s.cfg)

/-- R135: `SEQ_ONESHOT` in continuous mode and `SEQ_CONT_CONFIG` in one-shot mode are refused; `SEQ_READ_POLL` has no
precondition on the mode. -/
def Obligations.SequencesNeedTheirMode : Prop :=
  (∀ (s : State) (rest : List Event), s.events = .start .oneShot :: rest → s.seq.phase = .idle →
    s.cfg.mode = .continuous → step s = .refused .sequenceInWrongMode) ∧
  (∀ (s : State) (rest : List Event), s.events = .start .contConfig :: rest → s.seq.phase = .idle →
    s.cfg.mode = .oneShot → step s = .refused .sequenceInWrongMode) ∧
  (∀ (s : State) (rest : List Event), s.events = .start .readPoll :: rest → s.seq.phase = .idle →
    ∃ t : State, step s = .next t)

/-- Derived from 43_conversion_protocol.md section 5 (R129): the sequencer's own moves change no configuration
register, whatever it meets. -/
def Obligations.SequencesWriteNoRegister : Prop :=
  ∀ s t : State, (∀ e ∈ s.events.head?, isSequencerRequest e = true) → step s = .next t → t.cfg = s.cfg

/-- Derived from 43_conversion_protocol.md sections 4 and 5 (R126, R132, R133): the order of events within a sequence.
In `SEQ_ONESHOT` and `SEQ_CONT_CONFIG` one write, then one settle sleep only if the write succeeded; then, and in
`SEQ_READ_POLL` at once, reads and poll sleeps in strict alternation, starting and ending with a read. Every step of the
machine keeps it. The MODEL's: a sleep enters the trace when it ends (notes/assumptions/8.md), and the trace, the result
and the sequence they are of stay in `Idle` until the next start (notes/assumptions/9.md). -/
def Obligations.EveryStepKeepsTheTraceInOrder : Prop :=
  ∀ s t : State, InOrder s.seq → step s = .next t → InOrder t.seq

/-- Derived from 70_reset_and_hazards.md section 1 (R171): the state after reset has its (empty) trace in order, for
all values of the reset parameters; that there is no trace and no result then is the model's choice
(notes/assumptions/9.md). -/
def Obligations.ResetTraceInOrder : Prop :=
  (∀ (addr : Byte) (mode deviceMode : Mode) (start : BitVec 1),
    InOrder (State.resetWith addr mode deviceMode start).seq) ∧
  InOrder State.reset.seq

/-- Derived from 43_conversion_protocol.md sections 4 and 6 (R126, R136): for frames that are not ready followed by
one that is, the read-and-poll loop makes one read more than there were not-ready frames, with one 1 ms sleep between
each two, and ends with the answer for the ready frame. That this takes 2n + 1 steps is about the model, whose step is
one row of the transition table (DEDUCED, notes/assumptions/5.md). -/
def Obligations.PollLoopReadsOncePerFrame : Prop :=
  ∀ (s : State) (q : Sequence) (a : Byte) (fs : List Frame) (f : Frame) (rest : List Config.BusRead),
    s.events = [] → s.seq.phase = .reading q a → s.seq.disturbed = false → AllNotReady fs → FrameReady f →
    s.bus.readStub = fs.map busBytes ++ busBytes f :: rest →
    ∃ t : State, runFor (2 * fs.length + 1) s = .next t ∧
      t.seq.phase = .done ∧ t.seq.result = some (endResult q s.cfg.res f) ∧
      t.seq.trace = s.seq.trace ++ polls a fs ++ [.read a (some f)] ∧
      t.bus.readStub = rest ∧ t.bus.reads = s.bus.reads + fs.length + 1 ∧ t.cfg = s.cfg

/-- Derived from 43_conversion_protocol.md sections 2 and 6 (R122 to R124, R136): the whole trace of a one-shot
acquisition against a bus stub: exactly one write with the start marker set and one sleep of the settle delay plus 2,
then the reads and poll sleeps, and the result of the ready frame; the device's register then holds the control byte of
the block's configuration (10_state.md R31 (2)); that the sleeps and reads after the write leave all 8 bits of it, the
start marker among them, is the model's choice (notes/assumptions/18.md). That this takes 2n + 4 steps is about the model, whose step is one row
of the transition table (DEDUCED, notes/assumptions/5.md). -/
def Obligations.OneShotTrace : Prop :=
  ∀ (s : State) (fs : List Frame) (f : Frame) (rest : List Config.BusRead) (acks : List Bool),
    s.events = [.start .oneShot] → s.seq.phase = .idle → s.cfg.mode = .oneShot → AllNotReady fs → FrameReady f →
    s.bus.writeStub = true :: acks → s.bus.readStub = fs.map busBytes ++ busBytes f :: rest →
    ∃ t : State, runFor (2 * fs.length + 4) s = .next t ∧
      t.seq.phase = .done ∧ t.seq.result = some (resultOf s.cfg.res f) ∧
      t.seq.trace = [.write s.cfg.addr (cb s.cfg) true, .sleep (settleMs s.cfg.res + 2)] ++ polls s.cfg.addr fs
        ++ [.read s.cfg.addr (some f)] ∧
      (cb s.cfg).getLsbD 7 = true ∧ t.cfg = s.cfg ∧ t.bus.control = cb s.cfg ∧ DeviceInStep t

/-- Derived from 43_conversion_protocol.md section 4 (R127): the loop has no bound and no timeout. As long as the device
answers frames that are not ready, the loop is, after any number of polls, reading again, without a result. That n polls
take 2n steps is about the model, whose step is one row of the transition table (DEDUCED, notes/assumptions/5.md). -/
def Obligations.PollLoopHasNoBound : Prop :=
  ∀ (n : Nat) (s : State) (q : Sequence) (a : Byte),
    s.events = [] → s.seq.phase = .reading q a → s.seq.disturbed = false →
    (∀ k < n, ∃ f, frameOf (s.bus.answerAt k) = some f ∧ ready (frameStatus f) = false) →
    ∃ t : State, runFor (2 * n) s = .next t ∧ t.seq.phase = .reading q a ∧ t.seq.result = s.seq.result ∧
      t.cfg = s.cfg

/-- Derived from 43_conversion_protocol.md section 4 (R128): under the premise of eventual readiness every
read-and-poll loop ends, at the first answer of the bus that is no frame or is a ready one: with a bus error, or with
the result of that frame. -/
def Obligations.PollLoopEndsWhenEventuallyReady : Prop :=
  ∀ (s : State) (q : Sequence) (a : Byte),
    s.events = [] → s.seq.phase = .reading q a → s.seq.disturbed = false → EventuallyReady s.bus →
    ∃ (k n : Nat) (t : State), Ends s.bus k ∧ (∀ j < k, ¬ Ends s.bus j) ∧
      runFor n s = .next t ∧ t.seq.phase = .done ∧ t.cfg = s.cfg ∧ t.bus.reads = s.bus.reads + k + 1 ∧
      t.seq.result = some (match frameOf (s.bus.answerAt k) with
        | none => .busError
        | some f => endResult q s.cfg.res f)

/-- Derived; the MODEL's choice for a configuration command in the middle of a sequence (notes/assumptions/7.md; 93
U14, 43 R120): the command has its whole effect, and the sequence has no further move. -/
def Obligations.ConfigurationDuringSequenceEndsItsMeaning : Prop :=
  ∀ (s : State) (i : Instr), s.seq.phase.running = true → writesConfiguration i = true → WellFormed i →
    ∃ t u : State, exec i s = .next u ∧ step (s.present (encode i)) = .next t ∧
      t.cfg = u.cfg ∧ t.response = u.response ∧ t.bus = s.bus ∧ t.seq.phase = s.seq.phase ∧
      step (t.withEvents []) = .refused .configurationDuringSequence

/-! ## The device's register and the block's address -/

/-- Derived from 20_memory.md sections 1 and 12 (R41, R54) and 70_reset_and_hazards.md section 1 (R171): at power-on the
device's register selects 12-bit, gain ×1 and channel 1 (its mode and its start bit are open, notes/assumptions/17.md),
and it changes by nothing but a write transaction: not by a command or a reset of the block, as the spec says, and not by
a read, a sleep or the end of a conversion, which the spec leaves open (20_memory.md R42, R47) and the model chooses
(DESIGN CHOICE, unsafe, notes/assumptions/18.md). An acknowledged write sets it to the byte written; after a failed
write it is a free value (notes/assumptions/10.md). -/
def Obligations.DeviceRegisterChangesOnlyByAWrite : Prop :=
  (∀ (addr : Byte) (mode deviceMode : Mode) (start : BitVec 1),
    (State.resetWith addr mode deviceMode start).bus.control.extractLsb' 5 2 = 0#2 ∧
    (State.resetWith addr mode deviceMode start).bus.control.extractLsb' 2 2 = 0#2 ∧
    (State.resetWith addr mode deviceMode start).bus.control.extractLsb' 0 2 = 0#2) ∧
  (∀ s t : State, step s = .next t →
    t.bus.control = s.bus.control ∨
    ∃ q a b, s.seq.phase = .requested q a b ∧ t.bus.writes = s.bus.writes + 1 ∧
      (s.bus.nextAck = true → t.bus.control = b)) ∧
  (∀ (s t : State) (q : Sequence) (a b : Byte), (∀ e ∈ s.events.head?, e = .proceed ∨ e = .await) →
    s.seq.phase = .requested q a b → s.bus.nextAck = true → step s = .next t → t.bus.control = b)

/-- Derived from 40_configuration.md section 3 (R98 law 3), as a law of one step: `ADDR` holds the same address after
every step that serves neither a `CREATE` nor a reset, whatever else it serves and whatever the bus answers. -/
def Obligations.AddrKeptByEveryOtherStep : Prop :=
  ∀ (a : Byte) (s t : State), s.cfg.addr = a →
    (∀ e ∈ s.events.head?, (∀ w, e = .command w → ∀ b m, decode w ≠ .ok (.create b m)) ∧ ∀ b m, e ≠ .reset b m) →
    step s = .next t → t.cfg.addr = a
end

