-- ==== Sys2Proof/Laws/Decode.lean ====
section
/-! SUPPORT. What the decoder and the encoder do, once, so that proofs need not unfold them. -/

namespace Sys2Proof.Laws

@[simp] theorem opField_append (op : Byte) (arg : BitVec 24) : opField (op ++ arg) = op :=
  BitVec.extractLsb'_append_eq_left

@[simp] theorem argField_append (op : Byte) (arg : BitVec 24) : argField (op ++ arg) = arg :=
  BitVec.extractLsb'_append_eq_right

@[simp] theorem opField_encode (i : Instr) : opField (encode i) = opcodeOf i := opField_append _ _

@[simp] theorem argField_encode (i : Instr) : argField (encode i) = encodeArg i := argField_append _ _

/-- A word is its opcode above its operand field. -/
theorem opField_argField (w : Word) : opField w ++ argField w = w := by
  apply BitVec.eq_of_getLsbD_eq
  intro k hk
  simp only [BitVec.getLsbD_append, opField, argField, BitVec.getLsbD_extractLsb']
  split
  · simp_all
  · rw [show 24 + (k - 24) = k by omega]
    simp
    omega

/-- A row found for an opcode is a row of the map and has that opcode. -/
theorem findRow_some {op : Byte} {row : Row} (h : findRow op = some row) : row ∈ opcodeMap ∧ row.op = op :=
  ⟨List.mem_of_find?_eq_some h, by simpa using List.find?_some h⟩

/-- No row is found exactly for the opcodes of no row. -/
theorem findRow_none_iff (op : Byte) : findRow op = none ↔ ∀ row ∈ opcodeMap, row.op ≠ op := by
  simp [findRow]

/-- The rows have pairwise different opcodes, so at most one row has a word's opcode (30_encoding.md R71). -/
theorem opcodeMap_distinct : (opcodeMap.map Row.op).Pairwise (· ≠ ·) := by decide

/-- Decoding by a row that is found. -/
theorem decode_row {w : Word} {row : Row} (h : findRow (opField w) = some row) :
    decode w = if w &&& row.mask ≠ row.value then .error (.unusedBits row.mnemonic)
      else if (row.build (argField w)).wellFormed then .ok (row.build (argField w))
      else .error (.reservedOperand row.mnemonic) := by
  simp only [decode, h]

/-- Decoding when no row is found. -/
theorem decode_unknown {w : Word} (h : findRow (opField w) = none) :
    decode w = .error (.unknownOpcode (opField w)) := by
  simp only [decode, h]

/-- What a successful decoding means: the row of the opcode, its mask and match, its constraint, its operands. -/
theorem decode_ok {w : Word} {i : Instr} (h : decode w = .ok i) :
    ∃ row, findRow (opField w) = some row ∧ w &&& row.mask = row.value ∧ row.build (argField w) = i ∧ WellFormed i := by
  cases hr : findRow (opField w) with
  | none => rw [decode_unknown hr] at h; cases h
  | some row =>
    rw [decode_row hr] at h
    split at h
    · cases h
    · split at h
      · rename_i hm hw
        cases h
        exact ⟨row, rfl, by simpa using hm, rfl, hw⟩
      · cases h

/-- A decoded instruction is well-formed (30_encoding.md R74 case 3). -/
theorem decode_wellFormed {w : Word} {i : Instr} (h : decode w = .ok i) : WellFormed i :=
  (decode_ok h).choose_spec.2.2.2

/-- The bits of the word under an all-ones mask decide the match. -/
theorem masked_append {a b : Nat} (hi : BitVec a) (lo : BitVec b) :
    (hi ++ lo) &&& (BitVec.allOnes a ++ 0#b) = hi ++ 0#b := by
  rw [BitVec.and_append]; simp

@[simp] theorem modeOfBit_bit (m : Mode) : modeOfBit m.bit = m := by cases m <;> rfl

@[simp] theorem bit_modeOfBit (b : BitVec 1) : (modeOfBit b).bit = b := by revert b; decide

@[simp] theorem resolutionOfCode_code (r : Resolution) : resolutionOfCode r.code = some r := by cases r <;> rfl

@[simp] theorem resolutionOfCode_reserved : resolutionOfCode 3#2 = none := rfl

/-- A code that selects a resolution is that resolution's code. -/
theorem resolutionOfCode_some {c : BitVec 2} {r : Resolution} (h : resolutionOfCode c = some r) : c = r.code := by
  revert h; revert c; cases r <;> decide

theorem resolutionOfCode_none {c : BitVec 2} : resolutionOfCode c = none ↔ c = 3#2 := by revert c; decide

theorem code_ne_reserved (r : Resolution) : r.code ≠ 3#2 := by cases r <;> decide

/-! The operands are read from where the encoder puts them (30_encoding.md R73). -/

@[simp] theorem argAddr_append (z : BitVec 16) (a : Byte) : argAddr (z ++ a) = a := BitVec.extractLsb'_append_eq_right

@[simp] theorem argByte_append (z : BitVec 16) (b : Byte) : argByte (z ++ b) = b := BitVec.extractLsb'_append_eq_right

@[simp] theorem argCode_append (z : BitVec 22) (c : BitVec 2) : argCode (z ++ c) = c :=
  BitVec.extractLsb'_append_eq_right

@[simp] theorem argRaw_append (z : BitVec 8) (r : Sample) : argRaw (z ++ r) = r := BitVec.extractLsb'_append_eq_right

@[simp] theorem argMode_append (z : BitVec 23) (m : Mode) : argMode (z ++ m.bit) = m := by
  rw [argMode, BitVec.extractLsb'_append_eq_right, modeOfBit_bit]

@[simp] theorem argCreateMode_append (z : BitVec 15) (m : Mode) (a : Byte) :
    argCreateMode (z ++ m.bit ++ a) = m := by
  rw [argCreateMode, BitVec.extractLsb'_append_eq_of_le (by decide)]
  rw [BitVec.extractLsb'_append_eq_right, modeOfBit_bit]

end Sys2Proof.Laws
end

