-- ==== Sys2Proof/Laws/State.lean ====
section
/-! SUPPORT. One lemma per field per named update of the state: what the update leaves in that field. Each holds by
`rfl`, so that no later proof unfolds a record update. -/

namespace Sys2Proof.Machine

/-! Register writes. -/

@[simp] theorem Cfg.setMode_addr (v : Mode) (c : Cfg) : (c.setMode v).addr = c.addr := rfl
@[simp] theorem Cfg.setMode_mode (v : Mode) (c : Cfg) : (c.setMode v).mode = v := rfl
@[simp] theorem Cfg.setMode_chan (v : Mode) (c : Cfg) : (c.setMode v).chan = c.chan := rfl
@[simp] theorem Cfg.setMode_res (v : Mode) (c : Cfg) : (c.setMode v).res = c.res := rfl
@[simp] theorem Cfg.setMode_gain (v : Mode) (c : Cfg) : (c.setMode v).gain = c.gain := rfl
@[simp] theorem Cfg.setChan_addr (v : BitVec 2) (c : Cfg) : (c.setChan v).addr = c.addr := rfl
@[simp] theorem Cfg.setChan_mode (v : BitVec 2) (c : Cfg) : (c.setChan v).mode = c.mode := rfl
@[simp] theorem Cfg.setChan_chan (v : BitVec 2) (c : Cfg) : (c.setChan v).chan = v := rfl
@[simp] theorem Cfg.setChan_res (v : BitVec 2) (c : Cfg) : (c.setChan v).res = c.res := rfl
@[simp] theorem Cfg.setChan_gain (v : BitVec 2) (c : Cfg) : (c.setChan v).gain = c.gain := rfl
@[simp] theorem Cfg.setRes_addr (v : Resolution) (c : Cfg) : (c.setRes v).addr = c.addr := rfl
@[simp] theorem Cfg.setRes_mode (v : Resolution) (c : Cfg) : (c.setRes v).mode = c.mode := rfl
@[simp] theorem Cfg.setRes_chan (v : Resolution) (c : Cfg) : (c.setRes v).chan = c.chan := rfl
@[simp] theorem Cfg.setRes_res (v : Resolution) (c : Cfg) : (c.setRes v).res = v := rfl
@[simp] theorem Cfg.setRes_gain (v : Resolution) (c : Cfg) : (c.setRes v).gain = c.gain := rfl
@[simp] theorem Cfg.setGain_addr (v : BitVec 2) (c : Cfg) : (c.setGain v).addr = c.addr := rfl
@[simp] theorem Cfg.setGain_mode (v : BitVec 2) (c : Cfg) : (c.setGain v).mode = c.mode := rfl
@[simp] theorem Cfg.setGain_chan (v : BitVec 2) (c : Cfg) : (c.setGain v).chan = c.chan := rfl
@[simp] theorem Cfg.setGain_res (v : BitVec 2) (c : Cfg) : (c.setGain v).res = c.res := rfl
@[simp] theorem Cfg.setGain_gain (v : BitVec 2) (c : Cfg) : (c.setGain v).gain = v := rfl

/-! `withCfg`. -/

@[simp] theorem State.withCfg_cfg (c : Cfg) (s : State) : (s.withCfg c).cfg = c := rfl
@[simp] theorem State.withCfg_response (c : Cfg) (s : State) : (s.withCfg c).response = s.response := rfl
@[simp] theorem State.withCfg_events (c : Cfg) (s : State) : (s.withCfg c).events = s.events := rfl
@[simp] theorem State.withCfg_seq (c : Cfg) (s : State) : (s.withCfg c).seq = s.seq := rfl
@[simp] theorem State.withCfg_bus (c : Cfg) (s : State) : (s.withCfg c).bus = s.bus := rfl

/-! `answer`. -/

@[simp] theorem State.answer_cfg (r : Response) (s : State) : (s.answer r).cfg = s.cfg := rfl
@[simp] theorem State.answer_response (r : Response) (s : State) : (s.answer r).response = some r := rfl
@[simp] theorem State.answer_events (r : Response) (s : State) : (s.answer r).events = s.events := rfl
@[simp] theorem State.answer_seq (r : Response) (s : State) : (s.answer r).seq = s.seq := rfl
@[simp] theorem State.answer_bus (r : Response) (s : State) : (s.answer r).bus = s.bus := rfl

/-! `withEvents`. -/

@[simp] theorem State.withEvents_cfg (es : List Event) (s : State) : (s.withEvents es).cfg = s.cfg := rfl
@[simp] theorem State.withEvents_response (es : List Event) (s : State) : (s.withEvents es).response = s.response := rfl
@[simp] theorem State.withEvents_events (es : List Event) (s : State) : (s.withEvents es).events = es := rfl
@[simp] theorem State.withEvents_seq (es : List Event) (s : State) : (s.withEvents es).seq = s.seq := rfl
@[simp] theorem State.withEvents_bus (es : List Event) (s : State) : (s.withEvents es).bus = s.bus := rfl

/-! `withSeq`. -/

@[simp] theorem State.withSeq_cfg (q : Sequencer) (s : State) : (s.withSeq q).cfg = s.cfg := rfl
@[simp] theorem State.withSeq_response (q : Sequencer) (s : State) : (s.withSeq q).response = s.response := rfl
@[simp] theorem State.withSeq_events (q : Sequencer) (s : State) : (s.withSeq q).events = s.events := rfl
@[simp] theorem State.withSeq_seq (q : Sequencer) (s : State) : (s.withSeq q).seq = q := rfl
@[simp] theorem State.withSeq_bus (q : Sequencer) (s : State) : (s.withSeq q).bus = s.bus := rfl

/-! `withBus`. -/

@[simp] theorem State.withBus_cfg (b : Bus) (s : State) : (s.withBus b).cfg = s.cfg := rfl
@[simp] theorem State.withBus_response (b : Bus) (s : State) : (s.withBus b).response = s.response := rfl
@[simp] theorem State.withBus_events (b : Bus) (s : State) : (s.withBus b).events = s.events := rfl
@[simp] theorem State.withBus_seq (b : Bus) (s : State) : (s.withBus b).seq = s.seq := rfl
@[simp] theorem State.withBus_bus (b : Bus) (s : State) : (s.withBus b).bus = b := rfl

/-! `present`. -/

@[simp] theorem State.present_cfg (w : Word) (s : State) : (s.present w).cfg = s.cfg := rfl
@[simp] theorem State.present_response (w : Word) (s : State) : (s.present w).response = s.response := rfl
@[simp] theorem State.present_events (w : Word) (s : State) : (s.present w).events = .command w :: s.events := rfl
@[simp] theorem State.present_seq (w : Word) (s : State) : (s.present w).seq = s.seq := rfl
@[simp] theorem State.present_bus (w : Word) (s : State) : (s.present w).bus = s.bus := rfl

/-! `resetBlock`. -/

@[simp] theorem State.resetBlock_cfg (a : Byte) (m : Mode) (s : State) : (s.resetBlock a m).cfg = .default a m := rfl
@[simp] theorem State.resetBlock_response (a : Byte) (m : Mode) (s : State) : (s.resetBlock a m).response = none := rfl
@[simp] theorem State.resetBlock_events (a : Byte) (m : Mode) (s : State) : (s.resetBlock a m).events = s.events := rfl
@[simp] theorem State.resetBlock_seq (a : Byte) (m : Mode) (s : State) : (s.resetBlock a m).seq = .atReset := rfl
@[simp] theorem State.resetBlock_bus (a : Byte) (m : Mode) (s : State) : (s.resetBlock a m).bus = s.bus := rfl

/-! `setPhase`. -/

@[simp] theorem State.setPhase_cfg (p : Phase) (s : State) : (s.setPhase p).cfg = s.cfg := rfl
@[simp] theorem State.setPhase_response (p : Phase) (s : State) : (s.setPhase p).response = s.response := rfl
@[simp] theorem State.setPhase_events (p : Phase) (s : State) : (s.setPhase p).events = s.events := rfl
@[simp] theorem State.setPhase_seq_phase (p : Phase) (s : State) : (s.setPhase p).seq.phase = p := rfl
@[simp] theorem State.setPhase_seq_started (p : Phase) (s : State) : (s.setPhase p).seq.started = s.seq.started := rfl
@[simp] theorem State.setPhase_seq_result (p : Phase) (s : State) : (s.setPhase p).seq.result = s.seq.result := rfl
@[simp] theorem State.setPhase_seq_trace (p : Phase) (s : State) : (s.setPhase p).seq.trace = s.seq.trace := rfl
@[simp] theorem State.setPhase_seq_disturbed (p : Phase) (s : State) : (s.setPhase p).seq.disturbed = s.seq.disturbed := rfl
@[simp] theorem State.setPhase_bus (p : Phase) (s : State) : (s.setPhase p).bus = s.bus := rfl

/-! `record`. -/

@[simp] theorem State.record_cfg (e : TraceEvent) (s : State) : (s.record e).cfg = s.cfg := rfl
@[simp] theorem State.record_response (e : TraceEvent) (s : State) : (s.record e).response = s.response := rfl
@[simp] theorem State.record_events (e : TraceEvent) (s : State) : (s.record e).events = s.events := rfl
@[simp] theorem State.record_seq_phase (e : TraceEvent) (s : State) : (s.record e).seq.phase = s.seq.phase := rfl
@[simp] theorem State.record_seq_started (e : TraceEvent) (s : State) : (s.record e).seq.started = s.seq.started := rfl
@[simp] theorem State.record_seq_result (e : TraceEvent) (s : State) : (s.record e).seq.result = s.seq.result := rfl
@[simp] theorem State.record_seq_trace (e : TraceEvent) (s : State) : (s.record e).seq.trace = s.seq.trace ++ [e] := rfl
@[simp] theorem State.record_seq_disturbed (e : TraceEvent) (s : State) : (s.record e).seq.disturbed = s.seq.disturbed := rfl
@[simp] theorem State.record_bus (e : TraceEvent) (s : State) : (s.record e).bus = s.bus := rfl

/-! `finish`. -/

@[simp] theorem State.finish_cfg (r : SeqResult) (s : State) : (s.finish r).cfg = s.cfg := rfl
@[simp] theorem State.finish_response (r : SeqResult) (s : State) : (s.finish r).response = s.response := rfl
@[simp] theorem State.finish_events (r : SeqResult) (s : State) : (s.finish r).events = s.events := rfl
@[simp] theorem State.finish_seq_phase (r : SeqResult) (s : State) : (s.finish r).seq.phase = .done := rfl
@[simp] theorem State.finish_seq_started (r : SeqResult) (s : State) : (s.finish r).seq.started = s.seq.started := rfl
@[simp] theorem State.finish_seq_result (r : SeqResult) (s : State) : (s.finish r).seq.result = some r := rfl
@[simp] theorem State.finish_seq_trace (r : SeqResult) (s : State) : (s.finish r).seq.trace = s.seq.trace := rfl
@[simp] theorem State.finish_seq_disturbed (r : SeqResult) (s : State) : (s.finish r).seq.disturbed = s.seq.disturbed := rfl
@[simp] theorem State.finish_bus (r : SeqResult) (s : State) : (s.finish r).bus = s.bus := rfl

/-! `begin`. -/

@[simp] theorem State.begin_cfg (q : Sequence) (p : Phase) (s : State) : (s.begin q p).cfg = s.cfg := rfl
@[simp] theorem State.begin_response (q : Sequence) (p : Phase) (s : State) : (s.begin q p).response = s.response := rfl
@[simp] theorem State.begin_events (q : Sequence) (p : Phase) (s : State) : (s.begin q p).events = s.events := rfl
@[simp] theorem State.begin_seq_phase (q : Sequence) (p : Phase) (s : State) : (s.begin q p).seq.phase = p := rfl
@[simp] theorem State.begin_seq_started (q : Sequence) (p : Phase) (s : State) : (s.begin q p).seq.started = some q := rfl
@[simp] theorem State.begin_seq_result (q : Sequence) (p : Phase) (s : State) : (s.begin q p).seq.result = none := rfl
@[simp] theorem State.begin_seq_trace (q : Sequence) (p : Phase) (s : State) : (s.begin q p).seq.trace = [] := rfl
@[simp] theorem State.begin_seq_disturbed (q : Sequence) (p : Phase) (s : State) : (s.begin q p).seq.disturbed = false := rfl
@[simp] theorem State.begin_bus (q : Sequence) (p : Phase) (s : State) : (s.begin q p).bus = s.bus := rfl

/-! `takeRead`. -/

@[simp] theorem State.takeRead_cfg (s : State) : (s.takeRead).cfg = s.cfg := rfl
@[simp] theorem State.takeRead_response (s : State) : (s.takeRead).response = s.response := rfl
@[simp] theorem State.takeRead_events (s : State) : (s.takeRead).events = s.events := rfl
@[simp] theorem State.takeRead_seq (s : State) : (s.takeRead).seq = s.seq := rfl
@[simp] theorem State.takeRead_bus_readStub (s : State) : (s.takeRead).bus.readStub = s.bus.readStub.tail := rfl
@[simp] theorem State.takeRead_bus_writeStub (s : State) : (s.takeRead).bus.writeStub = s.bus.writeStub := rfl
@[simp] theorem State.takeRead_bus_reads (s : State) : (s.takeRead).bus.reads = s.bus.reads + 1 := rfl
@[simp] theorem State.takeRead_bus_writes (s : State) : (s.takeRead).bus.writes = s.bus.writes := rfl
@[simp] theorem State.takeRead_bus_control (s : State) : (s.takeRead).bus.control = s.bus.control := rfl

/-! `takeWrite`. -/

@[simp] theorem State.takeWrite_cfg (s : State) : (s.takeWrite).cfg = s.cfg := rfl
@[simp] theorem State.takeWrite_response (s : State) : (s.takeWrite).response = s.response := rfl
@[simp] theorem State.takeWrite_events (s : State) : (s.takeWrite).events = s.events := rfl
@[simp] theorem State.takeWrite_seq (s : State) : (s.takeWrite).seq = s.seq := rfl
@[simp] theorem State.takeWrite_bus_readStub (s : State) : (s.takeWrite).bus.readStub = s.bus.readStub := rfl
@[simp] theorem State.takeWrite_bus_writeStub (s : State) : (s.takeWrite).bus.writeStub = s.bus.writeStub.tail := rfl
@[simp] theorem State.takeWrite_bus_reads (s : State) : (s.takeWrite).bus.reads = s.bus.reads := rfl
@[simp] theorem State.takeWrite_bus_writes (s : State) : (s.takeWrite).bus.writes = s.bus.writes + 1 := rfl
@[simp] theorem State.takeWrite_bus_control (s : State) : (s.takeWrite).bus.control = s.bus.control := rfl

/-! `setControl`. -/

@[simp] theorem State.setControl_cfg (b : Byte) (s : State) : (s.setControl b).cfg = s.cfg := rfl
@[simp] theorem State.setControl_response (b : Byte) (s : State) : (s.setControl b).response = s.response := rfl
@[simp] theorem State.setControl_events (b : Byte) (s : State) : (s.setControl b).events = s.events := rfl
@[simp] theorem State.setControl_seq (b : Byte) (s : State) : (s.setControl b).seq = s.seq := rfl
@[simp] theorem State.setControl_bus_readStub (b : Byte) (s : State) : (s.setControl b).bus.readStub = s.bus.readStub := rfl
@[simp] theorem State.setControl_bus_writeStub (b : Byte) (s : State) : (s.setControl b).bus.writeStub = s.bus.writeStub := rfl
@[simp] theorem State.setControl_bus_reads (b : Byte) (s : State) : (s.setControl b).bus.reads = s.bus.reads := rfl
@[simp] theorem State.setControl_bus_writes (b : Byte) (s : State) : (s.setControl b).bus.writes = s.bus.writes := rfl
@[simp] theorem State.setControl_bus_control (b : Byte) (s : State) : (s.setControl b).bus.control = b := rfl

/-! `acknowledge`. -/

@[simp] theorem State.acknowledge_cfg (b : Byte) (s : State) : (s.acknowledge b).cfg = s.cfg := rfl
@[simp] theorem State.acknowledge_response (b : Byte) (s : State) : (s.acknowledge b).response = s.response := rfl
@[simp] theorem State.acknowledge_events (b : Byte) (s : State) : (s.acknowledge b).events = s.events := rfl
@[simp] theorem State.acknowledge_seq (b : Byte) (s : State) : (s.acknowledge b).seq = s.seq := rfl
@[simp] theorem State.acknowledge_bus_readStub (b : Byte) (s : State) : (s.acknowledge b).bus.readStub = s.bus.readStub := rfl
@[simp] theorem State.acknowledge_bus_writeStub (b : Byte) (s : State) : (s.acknowledge b).bus.writeStub = s.bus.writeStub := rfl
@[simp] theorem State.acknowledge_bus_reads (b : Byte) (s : State) : (s.acknowledge b).bus.reads = s.bus.reads := rfl
@[simp] theorem State.acknowledge_bus_writes (b : Byte) (s : State) : (s.acknowledge b).bus.writes = s.bus.writes := rfl
@[simp] theorem State.acknowledge_bus_control (b : Byte) (s : State) : (s.acknowledge b).bus.control = b := rfl

/-! `failWrite`. -/

@[simp] theorem State.failWrite_cfg (b : Byte) (s : State) : (s.failWrite b).cfg = s.cfg := rfl
@[simp] theorem State.failWrite_response (b : Byte) (s : State) : (s.failWrite b).response = s.response := rfl
@[simp] theorem State.failWrite_events (b : Byte) (s : State) : (s.failWrite b).events = s.events := rfl
@[simp] theorem State.failWrite_seq (b : Byte) (s : State) : (s.failWrite b).seq = s.seq := rfl
@[simp] theorem State.failWrite_bus_readStub (b : Byte) (s : State) : (s.failWrite b).bus.readStub = s.bus.readStub := rfl
@[simp] theorem State.failWrite_bus_writeStub (b : Byte) (s : State) : (s.failWrite b).bus.writeStub = s.bus.writeStub := rfl
@[simp] theorem State.failWrite_bus_reads (b : Byte) (s : State) : (s.failWrite b).bus.reads = s.bus.reads := rfl
@[simp] theorem State.failWrite_bus_writes (b : Byte) (s : State) : (s.failWrite b).bus.writes = s.bus.writes := rfl
@[simp] theorem State.failWrite_bus_control (b : Byte) (s : State) : (s.failWrite b).bus.control = Config.failedWrite s.bus.writes s.bus.control b := rfl

end Sys2Proof.Machine
end

