-- ==== Sys2Proof/Laws/Ops.lean ====
section
/-! SUPPORT. One lemma for each shared operation that says what it can do. -/

namespace Sys2Proof.Laws

open Sys2Proof.Machine

/-- The spec's truncating quotient is the library's (00_scope.md R11). -/
theorem tdiv_eq (a b : Int) : Machine.tdiv a b = Int.tdiv a b := by
  unfold Machine.tdiv
  split
  · rename_i h
    exact (Int.tdiv_eq_ediv_of_nonneg h).symm
  · rename_i h
    have hn : 0 ≤ -a := by omega
    rw [← Int.tdiv_eq_ediv_of_nonneg hn, Int.neg_tdiv, neg_neg]

@[simp] theorem respond_eq (c : Code) (d : Word) (s : State) : respond c d s = .next (s.answer ⟨c, d⟩) := rfl

@[simp] theorem raise_eq (c : Code) (s : State) : raise c s = .next (s.answer ⟨c, 0#32⟩) := rfl

@[simp] theorem present_withEvents (w : Word) (s : State) : (s.present w).withEvents s.events = s := rfl

@[simp] theorem withEvents_self (s : State) : s.withEvents s.events = s := rfl

/-! ## The bus -/

/-- After a read, the later answers move up by one. -/
theorem takeRead_answerAt (s : State) (k : Nat) : s.takeRead.bus.answerAt k = s.bus.answerAt (k + 1) := by
  have h : s.bus.reads + 1 + k = s.bus.reads + (k + 1) := by omega
  simp only [Bus.answerAt, State.takeRead_bus_readStub, State.takeRead_bus_reads, List.getElem?_tail, h]

/-- The next answer is the stub's first. -/
theorem answerAt_zero_cons {b : Bus} {x : Config.BusRead} {rest : List Config.BusRead} (h : b.readStub = x :: rest) :
    b.answerAt 0 = x := by
  simp [Bus.answerAt, h]

theorem nextAck_cons {b : Bus} {x : Bool} {rest : List Bool} (h : b.writeStub = x :: rest) : b.nextAck = x := by
  simp [Bus.nextAck, h]

/-- A read gives a frame exactly when it delivers three bytes, the first on top (20_memory.md R43, R45, R46). -/
theorem frameOf_eq_some {x : Config.BusRead} {f : Frame} :
    frameOf x = some f ↔ ∃ hi lo st : Byte, x = .bytes [hi, lo, st] ∧ f = hi ++ lo ++ st := by
  constructor
  · intro h
    unfold frameOf at h
    split at h
    · rename_i hi lo st
      exact ⟨hi, lo, st, rfl, by simpa using h.symm⟩
    · cases h
    · cases h
  · rintro ⟨hi, lo, st, rfl, rfl⟩
    rfl

@[simp] theorem frameStatus_append (a : Sample) (b : Byte) : frameStatus (a ++ b) = b :=
  BitVec.extractLsb'_append_eq_right

@[simp] theorem frameRaw_append (a : Sample) (b : Byte) : frameRaw (a ++ b) = a :=
  BitVec.extractLsb'_append_eq_left

/-! ## The conditions -/

/-- Ready is the complement of the top bit (42_status_decoder.md R111). -/
theorem ready_eq (b : Byte) : ready b = !b.getLsbD 7 := by revert b; decide

theorem readyBit_eq (b : Byte) : readyBit b = ~~~(b.extractLsb' 7 1) := by revert b; decide

/-! ## The sequencer's frame: its operations leave the block's registers alone -/

theorem afterWrite_cfg (q : Sequence) (a b : Byte) (s : State) : (afterWrite q a b s).cfg = s.cfg := by
  unfold afterWrite; split <;> rfl

theorem configFrame_cfg (a : Byte) (f : Frame) (s : State) : (configFrame a f s).cfg = s.cfg := by
  unfold configFrame; dsimp only; split <;> rfl

theorem measureFrame_cfg (q : Sequence) (a : Byte) (f : Frame) (s : State) : (measureFrame q a f s).cfg = s.cfg := by
  unfold measureFrame; dsimp only; split <;> rfl

theorem afterRead_cfg (q : Sequence) (a : Byte) (s : State) : (afterRead q a s).cfg = s.cfg := by
  unfold afterRead
  split
  · rfl
  · unfold afterFrame
    split
    · rw [configFrame_cfg]; rfl
    · rw [measureFrame_cfg]; rfl
    · rw [measureFrame_cfg]; rfl

/-- A move of the sequencer changes no register (43_conversion_protocol.md R129). -/
theorem move_cfg (s : State) : (move s).cfg = s.cfg := by
  unfold move
  split
  · rfl
  · exact afterWrite_cfg _ _ _ _
  · rfl
  · exact afterRead_cfg _ _ _
  · rfl
  · rfl

/-! ## What the sequencer does to the bus -/

/-- A write counts once; acknowledged it sets the device's register, failed it leaves it free (20_memory.md R41, R43). -/
theorem afterWrite_bus (q : Sequence) (a b : Byte) (s : State) :
    (afterWrite q a b s).bus = { s.bus with
      writeStub := s.bus.writeStub.tail
      writes := s.bus.writes + 1
      control := if s.bus.nextAck then b else Config.failedWrite s.bus.writes s.bus.control b } := by
  unfold afterWrite
  split <;> simp_all <;> rfl

/-- A read counts once and leaves the device's register alone (20_memory.md R42; the model's choice,
notes/assumptions/18.md). -/
theorem afterRead_bus (q : Sequence) (a : Byte) (s : State) : (afterRead q a s).bus = s.takeRead.bus := by
  unfold afterRead
  split
  · rfl
  · unfold afterFrame
    split
    · unfold configFrame; dsimp only; split <;> rfl
    all_goals unfold measureFrame; dsimp only; split <;> rfl

end Sys2Proof.Laws
end

