-- ==== Sys2Proof/Laws/Exec.lean ====
section
/-! SUPPORT. What running a command, delivering a word and serving a request can do, once. -/

namespace Sys2Proof.Laws

open Sys2Proof.Machine

/-- Every command completes: it leaves a configuration and an answer, and nothing else changes. -/
theorem exec_completes (i : Instr) (s : State) : ∃ c r, exec i s = .next ((s.withCfg c).answer r) := by
  cases i
  case withResolution res =>
    simp only [exec, execWithResolution]
    split
    · exact ⟨s.cfg, _, rfl⟩
    · exact ⟨_, _, rfl⟩
  case cbFields b =>
    simp only [exec, execCbFields]
    split
    · exact ⟨s.cfg, _, rfl⟩
    · exact ⟨s.cfg, _, rfl⟩
  case create => exact ⟨_, _, rfl⟩
  case withGain => exact ⟨_, _, rfl⟩
  case withChannel => exact ⟨_, _, rfl⟩
  case setChannel => exact ⟨_, _, rfl⟩
  case setMode => exact ⟨_, _, rfl⟩
  all_goals exact ⟨s.cfg, _, rfl⟩

/-- What an answer of `next` from a command says of the rest of the state. -/
theorem exec_frame {i : Instr} {s t : State} (h : exec i s = .next t) :
    t.events = s.events ∧ t.seq = s.seq ∧ t.bus = s.bus := by
  obtain ⟨c, r, he⟩ := exec_completes i s
  rw [he] at h
  cases h
  exact ⟨rfl, rfl, rfl⟩

/-- A command's answer is on the port (30_encoding.md R76). -/
theorem exec_answers {i : Instr} {s t : State} (h : exec i s = .next t) : ∃ r, t.response = some r := by
  obtain ⟨c, r, he⟩ := exec_completes i s
  rw [he] at h
  cases h
  exact ⟨r, rfl⟩

@[simp] theorem noteCommand_cfg (i : Instr) (s : State) : (s.noteCommand i).cfg = s.cfg := by
  unfold State.noteCommand; split <;> rfl

@[simp] theorem noteCommand_response (i : Instr) (s : State) : (s.noteCommand i).response = s.response := by
  unfold State.noteCommand; split <;> rfl

@[simp] theorem noteCommand_events (i : Instr) (s : State) : (s.noteCommand i).events = s.events := by
  unfold State.noteCommand; split <;> rfl

@[simp] theorem noteCommand_bus (i : Instr) (s : State) : (s.noteCommand i).bus = s.bus := by
  unfold State.noteCommand; split <;> rfl

@[simp] theorem noteCommand_phase (i : Instr) (s : State) : (s.noteCommand i).seq.phase = s.seq.phase := by
  unfold State.noteCommand; split <;> rfl

@[simp] theorem noteCommand_started (i : Instr) (s : State) : (s.noteCommand i).seq.started = s.seq.started := by
  unfold State.noteCommand; split <;> rfl

@[simp] theorem noteCommand_result (i : Instr) (s : State) : (s.noteCommand i).seq.result = s.seq.result := by
  unfold State.noteCommand; split <;> rfl

@[simp] theorem noteCommand_trace (i : Instr) (s : State) : (s.noteCommand i).seq.trace = s.seq.trace := by
  unfold State.noteCommand; split <;> rfl

/-- Outside a running sequence nothing is noted. -/
theorem noteCommand_idle {i : Instr} {s : State} (h : s.seq.phase.running = false) : s.noteCommand i = s := by
  simp [State.noteCommand, h]

/-- A legal word runs, an illegal one is answered `ILLEGAL` (30_encoding.md R71). -/
theorem deliver_ok {w : Word} {i : Instr} (h : decode w = .ok i) (s : State) :
    deliver w s = exec i (s.noteCommand i) := by
  simp only [deliver, h]

theorem deliver_error {w : Word} {e : DecodeError} (h : decode w = .error e) (s : State) :
    deliver w s = .next (s.answer ⟨.illegal, 0#32⟩) := by
  simp only [deliver, h, raise_eq]

/-- Delivering a word leaves the sequencer's phase, sequence, result and trace, the bus and the requests (43 R120). -/
theorem deliver_frame (w : Word) (s : State) : ∃ t, deliver w s = .next t ∧ t.events = s.events ∧ t.bus = s.bus ∧
    t.seq.phase = s.seq.phase ∧ t.seq.started = s.seq.started ∧ t.seq.result = s.seq.result ∧
    t.seq.trace = s.seq.trace := by
  cases h : decode w with
  | error e => exact ⟨_, deliver_error h s, rfl, rfl, rfl, rfl, rfl, rfl⟩
  | ok i =>
    obtain ⟨c, r, he⟩ := exec_completes i (s.noteCommand i)
    refine ⟨_, (deliver_ok h s).trans he, ?_⟩
    simp

/-! ## The step, by the oldest request -/

theorem step_nil {s : State} (h : s.events = []) : step s = advance s := by simp [step, serve, h]

theorem step_cons {s : State} {e : Event} {rest : List Event} (h : s.events = e :: rest) :
    step s = handle e (s.withEvents rest) := by simp [step, serve, h]

@[simp] theorem step_present (w : Word) (s : State) : step (s.present w) = deliver w s := rfl

/-- The sequencer's move in an undisturbed sequence, and its idling outside one. -/
theorem advance_undisturbed {s : State} (h : s.seq.disturbed = false) : advance s = .next (move s) := by
  simp [advance, h]

/-- What a step can do: deliver a word, start a sequence, let the sequencer move, hand over a result, or reset. -/
theorem step_cases {s t : State} (h : step s = .next t) :
    (∃ w rest, s.events = .command w :: rest ∧ deliver w (s.withEvents rest) = .next t) ∨
    (∃ q rest, s.events = .start q :: rest ∧ s.seq.phase = .idle ∧
      (t = requestWrite q (s.withEvents rest) ∧ q ≠ .readPoll ∨ t = requestRead (s.withEvents rest) ∧ q = .readPoll)) ∨
    (∃ es, t = move (s.withEvents es)) ∨
    (∃ rest, s.events = .await :: rest ∧ s.seq.phase = .done ∧ t = (s.withEvents rest).setPhase .idle) ∨
    (∃ a m rest, s.events = .reset a m :: rest ∧ t = (s.withEvents rest).resetBlock a m) := by
  have adv : ∀ u : State, advance u = .next t → t = move u := by
    intro u hu
    unfold advance at hu
    split at hu
    · cases hu
    · cases hu; rfl
  cases he : s.events with
  | nil =>
    rw [step_nil he] at h
    exact .inr (.inr (.inl ⟨s.events, adv s h⟩))
  | cons e rest =>
    rw [step_cons he] at h
    cases e with
    | command w => exact .inl ⟨w, rest, rfl, h⟩
    | start q =>
      by_cases hp : s.seq.phase = .idle
      · refine .inr (.inl ⟨q, rest, rfl, hp, ?_⟩)
        by_cases ha : q.allowedIn s.cfg.mode = true
        · cases q <;> simp [handle, startSequence, hp, ha] at h
          · exact .inl ⟨h.symm, by decide⟩
          · exact .inl ⟨h.symm, by decide⟩
          · exact .inr ⟨h.symm, rfl⟩
        · simp [handle, startSequence, hp, ha] at h
      · simp [handle, startSequence, hp] at h
    | proceed => exact .inr (.inr (.inl ⟨rest, adv _ h⟩))
    | await =>
      simp only [handle, awaitResult, State.withEvents_seq] at h
      split at h
      · cases h
      · cases h
        exact .inr (.inr (.inr (.inl ⟨rest, rfl, by assumption, rfl⟩)))
      · exact .inr (.inr (.inl ⟨_, adv _ h⟩))
    | reset a m =>
      cases h
      exact .inr (.inr (.inr (.inr ⟨a, m, rest, rfl, rfl⟩)))

end Sys2Proof.Laws
end

