-- ==== Sys2Proof/Laws/PerInstr.lean ====
section
/-! SUPPORT. The per-instruction family `RowMatches`: the encoding of an instruction is a word of its row. -/

namespace Sys2Proof.Laws

/-- The row of the instruction's opcode exists, the encoded word passes its mask and match, and the row reads the
operands back (30_encoding.md R71 to R73). -/
def RowMatches.Statement (i : Instr) : Prop :=
  ∃ row, findRow (opcodeOf i) = some row ∧ encode i &&& row.mask = row.value ∧ row.build (encodeArg i) = i

theorem RowMatches.create (addr : Byte) (mode : Mode) : RowMatches.Statement (.create addr mode) := by
  refine ⟨_, rfl, ?_, ?_⟩
  · change (0x01#8 ++ (0#15 ++ mode.bit ++ addr) : Word) &&& (0xFF#8 ++ (0x7FFF#15 ++ 0#1 ++ 0#8)) = _
    simp only [BitVec.and_append, BitVec.and_zero, BitVec.zero_and]
    rfl
  · simp [encodeArg]

theorem RowMatches.withResolution (res : BitVec 2) : RowMatches.Statement (.withResolution res) :=
  ⟨_, rfl, by revert res; decide, by simp [encodeArg]⟩

theorem RowMatches.withGain (gain : BitVec 2) : RowMatches.Statement (.withGain gain) :=
  ⟨_, rfl, by revert gain; decide, by simp [encodeArg]⟩

theorem RowMatches.withChannel (chan : BitVec 2) : RowMatches.Statement (.withChannel chan) :=
  ⟨_, rfl, by revert chan; decide, by simp [encodeArg]⟩

theorem RowMatches.setChannel (chan : BitVec 2) : RowMatches.Statement (.setChannel chan) :=
  ⟨_, rfl, by revert chan; decide, by simp [encodeArg]⟩

theorem RowMatches.setMode (mode : Mode) : RowMatches.Statement (.setMode mode) :=
  ⟨_, rfl, by cases mode <;> decide, by simp [encodeArg]⟩

theorem RowMatches.getAddr : RowMatches.Statement .getAddr := ⟨_, rfl, rfl, rfl⟩

theorem RowMatches.controlByte : RowMatches.Statement .controlByte := ⟨_, rfl, rfl, rfl⟩

theorem RowMatches.settleDelay : RowMatches.Statement .settleDelay := ⟨_, rfl, rfl, rfl⟩

theorem RowMatches.resBits : RowMatches.Statement .resBits := ⟨_, rfl, rfl, rfl⟩

theorem RowMatches.maxCode : RowMatches.Statement .maxCode := ⟨_, rfl, rfl, rfl⟩

theorem RowMatches.minCode : RowMatches.Statement .minCode := ⟨_, rfl, rfl, rfl⟩

theorem RowMatches.cbFields (byte : Byte) : RowMatches.Statement (.cbFields byte) := by
  refine ⟨_, rfl, ?_, by simp [encodeArg]⟩
  change (0x15#8 ++ (0#16 ++ byte) : Word) &&& (0xFF#8 ++ (0xFFFF#16 ++ 0#8)) = _
  simp only [BitVec.and_append, BitVec.and_zero, BitVec.zero_and]
  rfl

theorem RowMatches.status (byte : Byte) : RowMatches.Statement (.status byte) := by
  refine ⟨_, rfl, ?_, by simp [encodeArg]⟩
  change (0x20#8 ++ (0#16 ++ byte) : Word) &&& (0xFF#8 ++ (0xFFFF#16 ++ 0#8)) = _
  simp only [BitVec.and_append, BitVec.and_zero, BitVec.zero_and]
  rfl

theorem RowMatches.unpack (frame : Frame) : RowMatches.Statement (.unpack frame) := by
  refine ⟨_, rfl, ?_, rfl⟩
  change (0x21#8 ++ frame : Word) &&& (0xFF#8 ++ 0#24) = _
  rw [BitVec.and_append, BitVec.and_zero]
  rfl

theorem RowMatches.calcVoltage (raw : Sample) : RowMatches.Statement (.calcVoltage raw) := by
  refine ⟨_, rfl, ?_, by simp [encodeArg]⟩
  change (0x30#8 ++ (0#8 ++ raw) : Word) &&& (0xFF#8 ++ (0xFF#8 ++ 0#16)) = _
  simp only [BitVec.and_append, BitVec.and_zero, BitVec.zero_and]
  rfl

theorem RowMatches.measure (frame : Frame) : RowMatches.Statement (.measure frame) := by
  refine ⟨_, rfl, ?_, rfl⟩
  change (0x31#8 ++ frame : Word) &&& (0xFF#8 ++ 0#24) = _
  rw [BitVec.and_append, BitVec.and_zero]
  rfl

end Sys2Proof.Laws
end

