-- ==== Sys2Proof/Machine/Assembler.lean ====
section
/-! DEFINITION. The textual form of commands (30_encoding.md R81) and the document's names for them (R82). A line is
read as a request of the caller: a command, or the start of a sequence for `get_measurement`. -/

namespace Sys2Proof.Machine

/-- A word of the text, or the comma between two operands. -/
inductive Token where
  | word (cs : List Char)
  | comma
deriving DecidableEq, Repr

/-- End the word collected so far (in reverse). -/
def flushWord (acc : List Char) : List Token := if acc.isEmpty then [] else [.word acc.reverse]

/-- Cut a line into tokens: blanks and the brackets of the call notation separate, a semicolon starts a comment
(R81, R82; DESIGN CHOICE on blanks, notes/assumptions/13.md). -/
def lex (acc : List Char) : List Char → List Token
  | [] => flushWord acc
  | c :: cs =>
    if c = ';' then flushWord acc
    else if c = ',' then flushWord acc ++ .comma :: lex [] cs
    else if c = ' ' ∨ c = '\t' ∨ c = '(' ∨ c = ')' then flushWord acc ++ lex [] cs
    else lex (c :: acc) cs

/-- A decimal digit. -/
def decDigit (c : Char) : Option Nat :=
  if 48 ≤ c.toNat ∧ c.toNat ≤ 57 then some (c.toNat - 48) else none

/-- A hexadecimal digit, of either case. -/
def hexDigit (c : Char) : Option Nat :=
  if 48 ≤ c.toNat ∧ c.toNat ≤ 57 then some (c.toNat - 48)
  else if 65 ≤ c.toNat ∧ c.toNat ≤ 70 then some (c.toNat - 55)
  else if 97 ≤ c.toNat ∧ c.toNat ≤ 102 then some (c.toNat - 87)
  else none

/-- Read digits in a base, most significant first. -/
def readDigits (base : Nat) (digit : Char → Option Nat) (acc : Nat) : List Char → Option Nat
  | [] => some acc
  | c :: cs =>
    match digit c with
    | none => none
    | some d => readDigits base digit (acc * base + d) cs

/-- At least one digit. -/
def readNumber (base : Nat) (digit : Char → Option Nat) (cs : List Char) : Option Nat :=
  if cs.isEmpty then none else readDigits base digit 0 cs

/-- A number: decimal, or hexadecimal after `0x` (R81). -/
def number : List Char → Option Nat
  | '0' :: 'x' :: cs => readNumber 16 hexDigit cs
  | cs => readNumber 10 decDigit cs

/-- A number of at most `top`. -/
def numberUpTo (top : Nat) (cs : List Char) : Option Nat :=
  match number cs with
  | some n => if n ≤ top then some n else none
  | none => none

/-- addr and byte: 0 to 255. -/
def readByte (cs : List Char) : Option Byte := (numberUpTo 255 cs).map (BitVec.ofNat 8)

/-- A symbolic name, or a number of at most `top`. -/
def readCode (names : List (String × Nat)) (top : Nat) (cs : List Char) : Option Nat :=
  match names.find? (fun p => p.1.toList == cs) with
  | some p => some p.2
  | none => numberUpTo top cs

/-- mode: `ONESHOT`, `CONTINUOUS`, 0 or 1. -/
def readMode (cs : List Char) : Option Mode :=
  (readCode [("ONESHOT", 0), ("CONTINUOUS", 1)] 1 cs).map (fun n => if n = 1 then .continuous else .oneShot)

/-- res: `R12`, `R14`, `R16`, 0, 1 or 2. -/
def readRes (cs : List Char) : Option (BitVec 2) :=
  (readCode [("R12", 0), ("R14", 1), ("R16", 2)] 2 cs).map (BitVec.ofNat 2)

/-- gain: `X1`, `X2`, `X4`, `X8`, 0 to 3. -/
def readGain (cs : List Char) : Option (BitVec 2) :=
  (readCode [("X1", 0), ("X2", 1), ("X4", 2), ("X8", 3)] 3 cs).map (BitVec.ofNat 2)

/-- chan: `CH1`, `CH2`, `CH3`, `CH4`, 0 to 3. -/
def readChan (cs : List Char) : Option (BitVec 2) :=
  (readCode [("CH1", 0), ("CH2", 1), ("CH3", 2), ("CH4", 3)] 3 cs).map (BitVec.ofNat 2)

/-- raw: decimal −32768 to 32767, or hexadecimal `0x0000` to `0xFFFF`; a negative number is its 16-bit pattern. -/
def readRaw : List Char → Option Sample
  | '-' :: cs =>
    match readNumber 10 decDigit cs with
    | some n => if n ≤ 32768 then some (-(BitVec.ofNat 16 n)) else none
    | none => none
  | '0' :: 'x' :: cs => (numberUpTo 0xFFFF ('0' :: 'x' :: cs)).map (BitVec.ofNat 16)
  | cs => (numberUpTo 32767 cs).map (BitVec.ofNat 16)

/-- Three bytes in bus order make one frame operand: arg = `{hi, lo, st}`. -/
def readFrame (hi lo st : List Char) : Option Frame :=
  match readByte hi, readByte lo, readByte st with
  | some h, some l, some b => some (h ++ l ++ b)
  | _, _, _ => none

/-- The operands of a line: words with a comma between each two. -/
def operands : List Token → Option (List (List Char))
  | [] => some []
  | [.word w] => some [w]
  | .word w :: .comma :: rest =>
    match operands rest with
    | some (x :: xs) => some (w :: x :: xs)
    | _ => none
  | _ => none

/-- The document's names for commands, and the two pseudo-instructions (R82). -/
def documentNames : List (String × String) :=
  [ ("DECODE", "STATUS"), ("IS_READY", "STATUS"), ("calculate_voltage", "CALC_VOLTAGE"),
    ("control_byte", "CONTROL_BYTE"), ("settle_delay", "SETTLE_DELAY"), ("res_bits", "RES_BITS"),
    ("max", "MAX_CODE"), ("min", "MIN_CODE"), ("create", "CREATE"), ("with_resolution", "WITH_RESOLUTION"),
    ("with_gain", "WITH_GAIN"), ("with_channel", "WITH_CHANNEL"), ("set_channel", "SET_CHANNEL"),
    ("set_mode", "SET_MODE") ]

/-- The mnemonic a name stands for (R82). -/
def mnemonicOf (cs : List Char) : List Char :=
  match documentNames.find? (fun p => p.1.toList == cs) with
  | some p => p.2.toList
  | none => cs

/-- The command of a mnemonic with no operand. -/
def plainCommand (m : List Char) : Option Instr :=
  if m = "GET_ADDR".toList then some .getAddr
  else if m = "CONTROL_BYTE".toList then some .controlByte
  else if m = "SETTLE_DELAY".toList then some .settleDelay
  else if m = "RES_BITS".toList then some .resBits
  else if m = "MAX_CODE".toList then some .maxCode
  else if m = "MIN_CODE".toList then some .minCode
  else none

/-- The command of a mnemonic with one operand. -/
def unaryCommand (m x : List Char) : Option Instr :=
  if m = "WITH_RESOLUTION".toList then (readRes x).map .withResolution
  else if m = "WITH_GAIN".toList then (readGain x).map .withGain
  else if m = "WITH_CHANNEL".toList then (readChan x).map .withChannel
  else if m = "SET_CHANNEL".toList then (readChan x).map .setChannel
  else if m = "SET_MODE".toList then (readMode x).map .setMode
  else if m = "CB_FIELDS".toList then (readByte x).map .cbFields
  else if m = "STATUS".toList then (readByte x).map .status
  else if m = "CALC_VOLTAGE".toList then (readRaw x).map .calcVoltage
  else none

/-- `CREATE addr, mode`. -/
def binaryCommand (m x y : List Char) : Option Instr :=
  if m = "CREATE".toList then
    match readByte x, readMode y with
    | some a, some md => some (.create a md)
    | _, _ => none
  else none

/-- `UNPACK` and `MEASURE`. -/
def frameCommand (m hi lo st : List Char) : Option Instr :=
  if m = "UNPACK".toList then (readFrame hi lo st).map .unpack
  else if m = "MEASURE".toList then (readFrame hi lo st).map .measure
  else none

/-- The command of a mnemonic and its operands (R81). -/
def command (m : List Char) : List (List Char) → Option Instr
  | [] => plainCommand m
  | [x] => unaryCommand m x
  | [x, y] => binaryCommand m x y
  | [x, y, z] => frameCommand m x y z
  | _ => none

/-- Read one line (R81, R82): a command's word, or the start of `SEQ_READ_POLL` for `get_measurement`; none for a line
that is neither. -/
def assemble (line : List Char) : Option Event :=
  match lex [] line with
  | .word m :: rest =>
    match operands rest with
    | some ops =>
      if m = "get_measurement".toList ∧ ops = [] then some (.start .readPoll)
      else (command (mnemonicOf m) ops).map (fun i => .command (encode i))
    | none => none
  | _ => none

/-- `IS_READY byte`: `STATUS byte`, then take `data[8]` of its response (R82). -/
def isReadyAnswer (r : Response) : Bool := r.data.getLsbD 8

end Sys2Proof.Machine
end

