-- ==== Sys2Proof/Tests/Slice0.lean ====
section
/-! SUPPORT. The model's own tests: ill-formed terms, decoding of words written out from the spec, one step of each
command and of the sequencer on the vectors of 95_test_vectors.md, and a witness for each statement that has hypotheses.
Expected values are the spec's. -/

namespace Sys2Proof.Tests

open Sys2Proof.Machine Sys2Proof.Safety

/-! ## Ill-formed terms -/

/-- 30_encoding.md R74 case 3: the reserved resolution code. -/
theorem test_wf_refuses_resolution_3 : ¬ WellFormed (.withResolution 3#2) := by decide

/-- 30_encoding.md R74 case 3: a byte with bits 3-2 = 3. -/
theorem test_wf_refuses_cb_fields_0C : ¬ WellFormed (.cbFields 0x0C#8) := by decide

theorem test_wf_accepts_the_codes_beside_them :
    WellFormed (.withResolution 2#2) ∧ WellFormed (.cbFields 0x0B#8) ∧ WellFormed (.cbFields 0x10#8) := by decide

/-! ## Decoding, from the Encoding lines of files 40 to 44 and the tables of 95 section 2 -/

theorem test_decode_create : decode 0x01000168#32 = .ok (.create 0x68#8 .continuous) := by decide
theorem test_decode_with_resolution : decode 0x02000002#32 = .ok (.withResolution 2#2) := by decide
theorem test_decode_with_gain : decode 0x03000003#32 = .ok (.withGain 3#2) := by decide
theorem test_decode_with_channel : decode 0x04000002#32 = .ok (.withChannel 2#2) := by decide
theorem test_decode_set_channel : decode 0x05000001#32 = .ok (.setChannel 1#2) := by decide
theorem test_decode_set_mode : decode 0x06000001#32 = .ok (.setMode .continuous) := by decide
theorem test_decode_get_addr : decode 0x07000000#32 = .ok (.getAddr) := by decide
theorem test_decode_control_byte : decode 0x10000000#32 = .ok (.controlByte) := by decide
theorem test_decode_settle_delay : decode 0x11000000#32 = .ok (.settleDelay) := by decide
theorem test_decode_res_bits : decode 0x12000000#32 = .ok (.resBits) := by decide
theorem test_decode_max_code : decode 0x13000000#32 = .ok (.maxCode) := by decide
theorem test_decode_min_code : decode 0x14000000#32 = .ok (.minCode) := by decide
theorem test_decode_cb_fields : decode 0x15000057#32 = .ok (.cbFields 0x57#8) := by decide
theorem test_decode_status : decode 0x20000090#32 = .ok (.status 0x90#8) := by decide
theorem test_decode_unpack : decode 0x21123456#32 = .ok (.unpack 0x123456#24) := by decide
theorem test_decode_calc_voltage : decode 0x3000FC00#32 = .ok (.calcVoltage 0xFC00#16) := by decide
theorem test_decode_measure : decode 0x31123408#32 = .ok (.measure 0x123408#24) := by decide

/-- 95 section 2.9, case 1: the ends of the gaps of the map. -/
theorem test_decode_unknown_opcodes :
    decode 0x00000000#32 = .error (.unknownOpcode 0x00#8) ∧
    decode 0x08000000#32 = .error (.unknownOpcode 0x08#8) ∧
    decode 0x0F000000#32 = .error (.unknownOpcode 0x0F#8) ∧
    decode 0x16000000#32 = .error (.unknownOpcode 0x16#8) ∧
    decode 0x1F000000#32 = .error (.unknownOpcode 0x1F#8) ∧
    decode 0x22000000#32 = .error (.unknownOpcode 0x22#8) ∧
    decode 0x2F000000#32 = .error (.unknownOpcode 0x2F#8) ∧
    decode 0x32000000#32 = .error (.unknownOpcode 0x32#8) ∧
    decode 0xFFFFFFFF#32 = .error (.unknownOpcode 0xFF#8) := by decide

/-- 95 section 2.9, case 2: an unused bit. -/
theorem test_decode_unused_bits :
    decode 0x01000200#32 = .error (.unusedBits "CREATE") ∧
    decode 0x02000007#32 = .error (.unusedBits "WITH_RESOLUTION") ∧
    decode 0x04800000#32 = .error (.unusedBits "WITH_CHANNEL") ∧
    decode 0x06000002#32 = .error (.unusedBits "SET_MODE") ∧
    decode 0x10000080#32 = .error (.unusedBits "CONTROL_BYTE") ∧
    decode 0x20000100#32 = .error (.unusedBits "STATUS") ∧
    decode 0x30010000#32 = .error (.unusedBits "CALC_VOLTAGE") := by decide

/-- 95 section 2.9, case 3: a reserved operand. -/
theorem test_decode_reserved_operands :
    decode 0x02000003#32 = .error (.reservedOperand "WITH_RESOLUTION") ∧
    decode 0x1500000C#32 = .error (.reservedOperand "CB_FIELDS") := by decide

/-- 30_encoding.md R77: the numbers of the codes. -/
theorem test_code_numbers :
    [Code.ok, .overRange, .underRange, .notReady, .illegal, .notInitialized, .busError].map Code.number =
      [0#4, 1#4, 2#4, 3#4, 4#4, 5#4, 6#4] := by decide

/-! ## One step of each command, on the rows of 95 section 2 -/

/-- A state with this configuration and nothing else going on. -/
def holding (addr : Byte) (mode : Mode) (chan : BitVec 2) (res : Resolution) (gain : BitVec 2) : State :=
  { State.reset with cfg := ⟨addr, mode, chan, res, gain⟩ }

/-- `cfg0` of 95. -/
def cfg0 : State := holding 0x68#8 .oneShot 0#2 .r12 0#2

/-- The busy configuration of 95 section 2.1. -/
def busy : State := holding 0x00#8 .continuous 3#2 .r16 3#2

/-- What one step on a presented word leaves: the configuration and the response. -/
def after (s : State) (w : Word) : Option (Cfg × Option Response) :=
  match step (s.present w) with
  | .next t => some (t.cfg, t.response)
  | .fault _ => none
  | .refused _ => none

/-- A configuration with a response. -/
def got (s : State) (code : Code) (data : Word) : Option (Cfg × Option Response) := some (s.cfg, some ⟨code, data⟩)

theorem test_create_overwrites :
    after busy 0x01000168#32 = got (holding 0x68#8 .continuous 0#2 .r12 0#2) .ok 0x00006810#32 := by decide
theorem test_create_address_above_127 :
    after busy 0x01000080#32 = got (holding 0x80#8 .oneShot 0#2 .r12 0#2) .ok 0x00008080#32 := by decide
theorem test_with_resolution :
    after cfg0 0x02000002#32 = got (holding 0x68#8 .oneShot 0#2 .r16 0#2) .ok 0x00006888#32 := by decide
theorem test_with_resolution_reserved : after busy 0x02000003#32 = got busy .illegal 0#32 := by decide
theorem test_with_gain :
    after cfg0 0x03000003#32 = got (holding 0x68#8 .oneShot 0#2 .r12 3#2) .ok 0x00006883#32 := by decide
theorem test_with_channel :
    after cfg0 0x04000002#32 = got (holding 0x68#8 .oneShot 2#2 .r12 0#2) .ok 0x000068C0#32 := by decide
theorem test_set_channel : after (holding 0x68#8 .continuous 2#2 .r14 3#2) 0x05000001#32 =
    got (holding 0x68#8 .continuous 1#2 .r14 3#2) .ok 0#32 := by decide
theorem test_set_mode : after (holding 0x68#8 .continuous 2#2 .r14 3#2) 0x06000000#32 =
    got (holding 0x68#8 .oneShot 2#2 .r14 3#2) .ok 0#32 := by decide
theorem test_get_addr_above_127 : after (holding 0xC8#8 .continuous 0#2 .r12 0#2) 0x07000000#32 =
    got (holding 0xC8#8 .continuous 0#2 .r12 0#2) .ok 0x000000C8#32 := by decide
theorem test_control_byte : after (holding 0x68#8 .continuous 2#2 .r14 3#2) 0x10000000#32 =
    got (holding 0x68#8 .continuous 2#2 .r14 3#2) .ok 0x00000057#32 := by decide
theorem test_control_byte_start : after (holding 0x68#8 .oneShot 2#2 .r16 1#2) 0x10000000#32 =
    got (holding 0x68#8 .oneShot 2#2 .r16 1#2) .ok 0x000000C9#32 := by decide
theorem test_settle_delay : after busy 0x11000000#32 = got busy .ok 0x00000039#32 := by decide
theorem test_res_bits : after busy 0x12000000#32 = got busy .ok 0x00000010#32 := by decide
theorem test_max_code : after cfg0 0x13000000#32 = got cfg0 .ok 0x000007FF#32 := by decide
theorem test_min_code : after busy 0x14000000#32 = got busy .ok 0xFFFF8000#32 := by decide
theorem test_cb_fields : after cfg0 0x150000FB#32 = got cfg0 .ok 0x00013123#32 := by decide
theorem test_cb_fields_reserved : after cfg0 0x1500008F#32 = got cfg0 .illegal 0#32 := by decide
theorem test_status_not_ready : after cfg0 0x20000080#32 = got cfg0 .ok 0x00000080#32 := by decide
theorem test_status_ready : after cfg0 0x2000007F#32 = got cfg0 .ok 0x0000017F#32 := by decide
theorem test_unpack : after cfg0 0x21123456#32 = got cfg0 .ok 0x01561234#32 := by decide
theorem test_unpack_not_ready : after cfg0 0x21FC0090#32 = got cfg0 .ok 0x0090FC00#32 := by decide
theorem test_calc_voltage_truncates : after (holding 0x68#8 .oneShot 0#2 .r14 3#2) 0x3000F7FF#32 =
    got (holding 0x68#8 .oneShot 0#2 .r14 3#2) .ok 0xFFFFFE00#32 := by decide
theorem test_calc_voltage_saturates : after cfg0 0x3000F800#32 = got cfg0 .underRange 0#32 := by decide
theorem test_measure : after busy 0x31123408#32 = got busy .ok 0x00000123#32 := by decide
theorem test_measure_not_ready_first : after cfg0 0x3107FF80#32 = got cfg0 .notReady 0#32 := by decide

/-- An unknown opcode answers `ILLEGAL` and changes nothing. -/
theorem test_illegal_word : after busy 0xFFFFFFFF#32 = got busy .illegal 0#32 := by decide

/-- A table word is run by the very next step after reset. -/
theorem test_table_word_runs_at_reset :
    decodeTableWord 32 0x07000000 = some .getAddr ∧
    (match step (State.reset.withFetchWord 32 0x07000000) with
      | .next t => t.response
      | .fault _ => none
      | .refused _ => none) = some ⟨.ok, 0#32⟩ := by decide

/-! ## One step of the sequencer -/

/-- The sequence that a phase is of, where it says. -/
def sequenceOf : Phase → Option Sequence
  | .idle => none
  | .requested q _ _ => some q
  | .settling q _ _ => some q
  | .reading q _ => some q
  | .polling q _ _ => some q
  | .done => some .readPoll

/-- A sequencer in the middle of a sequence, with answers of the bus given in advance. -/
def inPhase (s : State) (p : Phase) (reads : List Config.BusRead) (writes : List Bool) : State :=
  { s with
    seq := ⟨p, sequenceOf p, none, [], false⟩
    bus := ⟨reads, writes, 0, 0, s.bus.control⟩ }

/-- What one step leaves in the device's register. -/
def deviceAfter (s : State) : Option Byte :=
  match step s with
  | .next t => some t.bus.control
  | .fault _ => none
  | .refused _ => none

/-- 20_memory.md R54: "12-bit/240 SPS resolution, gain ×1, channel 1", in the layout of 30_encoding.md R61. -/
theorem test_device_at_power_on :
    (State.resetWith 0x68#8 .continuous .continuous 0#1).bus.control = 0x10#8 ∧
    (State.resetWith 0x68#8 .continuous .oneShot 1#1).bus.control = 0x80#8 := by decide

/-- 20_memory.md R41 and R54: an acknowledged write sets the device's register (T8 of 95 section 3). -/
theorem test_device_takes_the_byte : deviceAfter (inPhase (holding 0x68#8 .continuous 3#2 .r16 3#2)
      (.requested .contConfig 0x68#8 0x7B#8) [] [true]) = some 0x7B#8 := by decide

/-- 70_reset_and_hazards.md R171, R178: neither a configuration command nor a reset of the block reaches the device. -/
theorem test_device_keeps_its_register :
    deviceAfter ((cfg0.setControl 0x7B#8).present 0x02000002#32) = some 0x7B#8 ∧
    deviceAfter ((cfg0.setControl 0x7B#8).withEvents [.reset 0x68#8 .oneShot]) = some 0x7B#8 := by decide

/-- What one step leaves of the sequencer: its phase, its result and its trace. -/
def seqAfter (s : State) : Option (Phase × Option SeqResult × List TraceEvent) :=
  match step s with
  | .next t => some (t.seq.phase, t.seq.result, t.seq.trace)
  | .fault _ => none
  | .refused _ => none

/-- Whether one step is refused, and why. -/
def refusal (s : State) : Option Refusal :=
  match step s with
  | .next _ => none
  | .fault _ => none
  | .refused r => some r

/-- T1: the byte written is 0x80. -/
theorem test_oneshot_starts : seqAfter (cfg0.withEvents [.start .oneShot]) =
    some (.requested .oneShot 0x68#8 0x80#8, none, []) := by decide

/-- T4: the settle sleep at 16 bits is 59 ms. -/
theorem test_oneshot_settles : seqAfter (inPhase (holding 0x68#8 .oneShot 0#2 .r16 0#2)
      (.requested .oneShot 0x68#8 0x88#8) [] [true]) =
    some (.settling .oneShot 0x68#8 59, none, [.write 0x68#8 0x88#8 true]) := by decide

/-- T3: the write fails. -/
theorem test_oneshot_write_fails : seqAfter (inPhase cfg0 (.requested .oneShot 0x68#8 0x80#8) [] [false]) =
    some (.done, some .busError, [.write 0x68#8 0x80#8 false]) := by decide

/-- T8: the settle sleep of the continuous configuration has no margin. -/
theorem test_cont_config_settles : seqAfter (inPhase (holding 0x68#8 .continuous 3#2 .r16 3#2)
      (.requested .contConfig 0x68#8 0x7B#8) [] [true]) =
    some (.settling .contConfig 0x68#8 57, none, [.write 0x68#8 0x7B#8 true]) := by decide

/-- T7: the ready frame carries the maximum code and is not decoded. -/
theorem test_cont_config_discards_the_sample : seqAfter (inPhase (holding 0x68#8 .continuous 0#2 .r12 0#2)
      (.reading .contConfig 0x68#8) [.bytes [0x07#8, 0xFF#8, 0x10#8]] []) =
    some (.done, some .okUnit, [.read 0x68#8 (some 0x07FF10#24)]) := by decide

/-- T11: raw -17 at 16 bits is -1 mV. -/
theorem test_read_poll_ends : seqAfter (inPhase (holding 0x68#8 .continuous 3#2 .r16 3#2)
      (.reading .readPoll 0x68#8) [.bytes [0xFF#8, 0xEF#8, 0x7B#8]] []) =
    some (.done, some (.okVoltage 0xFFFFFFFF#32), [.read 0x68#8 (some 0xFFEF7B#24)]) := by decide

/-- T5: a frame that is not ready is polled again, whatever its sample. -/
theorem test_read_poll_polls : seqAfter (inPhase (holding 0x68#8 .oneShot 1#2 .r14 2#2)
      (.reading .oneShot 0x68#8) [.bytes [0x1F#8, 0xFF#8, 0xA6#8]] []) =
    some (.polling .oneShot 0x68#8 1, none, [.read 0x68#8 (some 0x1FFFA6#24)]) := by decide

/-- T12: the read fails; and two bytes are a failed read (20_memory.md R46). -/
theorem test_read_fails :
    seqAfter (inPhase cfg0 (.reading .readPoll 0x68#8) [.busError] []) =
      some (.done, some .busError, [.read 0x68#8 none]) ∧
    seqAfter (inPhase cfg0 (.reading .readPoll 0x68#8) [.bytes [0x04#8, 0x00#8]] []) =
      some (.done, some .busError, [.read 0x68#8 none]) := by decide

/-- 43_conversion_protocol.md R135 and R133. -/
theorem test_refusals :
    refusal (cfg0.withEvents [.start .contConfig]) = some .sequenceInWrongMode ∧
    refusal ((inPhase cfg0 .done [] []).withEvents [.start .readPoll]) = some .startOutsideIdle ∧
    refusal (cfg0.withEvents [.await]) = some .awaitWithoutSequence := by decide

/-! ## The textual form (30_encoding.md R81, R82) -/

theorem test_assemble_create :
    assemble "CREATE 0x68, ONESHOT ; a comment".toList = some (.command 0x01000068#32) := by decide

theorem test_assemble_negative_raw :
    assemble "calculate_voltage(-1024)".toList = some (.command 0x3000FC00#32) := by decide

theorem test_assemble_get_measurement : assemble "get_measurement".toList = some (.start .readPoll) := by decide

/-! ## Witnesses: states and operands that meet the hypotheses of the statements -/

/-- With no request pending, undisturbed, the sequence is in this phase. -/
abbrev atPhase (s : State) (p : Phase) : Prop := s.events = [] ∧ s.seq.phase = p ∧ s.seq.disturbed = false

/-- The oldest and only request is to start this sequence, from `Idle`. -/
abbrev starting (s : State) (q : Sequence) : Prop := s.events = .start q :: [] ∧ s.seq.phase = .idle

theorem witness_CreateWritesAllFiveRegisters :
    ((0x01000200#32).extractLsb' 24 8 = 0x01#8 ∧ (0x01000200#32).extractLsb' 9 15 ≠ 0#15) ∧
    ((0x01800000#32).extractLsb' 24 8 = 0x01#8 ∧ (0x01800000#32).extractLsb' 9 15 ≠ 0#15) := by decide

theorem witness_WithResolutionWritesRes :
    ((0x02000004#32).extractLsb' 24 8 = 0x02#8 ∧ (0x02000004#32).extractLsb' 2 22 ≠ 0#22) ∧
    ((0x02800000#32).extractLsb' 24 8 = 0x02#8 ∧ (0x02800000#32).extractLsb' 2 22 ≠ 0#22) := by decide

theorem witness_WithGainWritesGain :
    ((0x03000004#32).extractLsb' 24 8 = 0x03#8 ∧ (0x03000004#32).extractLsb' 2 22 ≠ 0#22) ∧
    ((0x03800000#32).extractLsb' 24 8 = 0x03#8 ∧ (0x03800000#32).extractLsb' 2 22 ≠ 0#22) := by decide

theorem witness_WithChannelWritesChan :
    ((0x04000004#32).extractLsb' 24 8 = 0x04#8 ∧ (0x04000004#32).extractLsb' 2 22 ≠ 0#22) ∧
    ((0x04800000#32).extractLsb' 24 8 = 0x04#8 ∧ (0x04800000#32).extractLsb' 2 22 ≠ 0#22) := by decide

theorem witness_SetChannelWritesChan :
    ((0x05000004#32).extractLsb' 24 8 = 0x05#8 ∧ (0x05000004#32).extractLsb' 2 22 ≠ 0#22) ∧
    ((0x05800000#32).extractLsb' 24 8 = 0x05#8 ∧ (0x05800000#32).extractLsb' 2 22 ≠ 0#22) := by decide

theorem witness_SetModeWritesMode :
    ((0x06000002#32).extractLsb' 24 8 = 0x06#8 ∧ (0x06000002#32).extractLsb' 1 23 ≠ 0#23) ∧
    ((0x06800000#32).extractLsb' 24 8 = 0x06#8 ∧ (0x06800000#32).extractLsb' 1 23 ≠ 0#23) ∧
    ((0 < 8 ∧ 0 ≠ 4 ∧ 0 ≠ 7) ∧ (6 < 8 ∧ 6 ≠ 4 ∧ 6 ≠ 7)) := by decide

theorem witness_GetAddrAnswersAddr :
    ((0x07000001#32).extractLsb' 24 8 = 0x07#8 ∧ (0x07000001#32).extractLsb' 0 24 ≠ 0#24) ∧
    ((0x07800000#32).extractLsb' 24 8 = 0x07#8 ∧ (0x07800000#32).extractLsb' 0 24 ≠ 0#24) := by decide

theorem witness_ControlByteAnswersTheFields :
    ((0x10000001#32).extractLsb' 24 8 = 0x10#8 ∧ (0x10000001#32).extractLsb' 0 24 ≠ 0#24) ∧
    ((0x10800000#32).extractLsb' 24 8 = 0x10#8 ∧ (0x10800000#32).extractLsb' 0 24 ≠ 0#24) := by decide

theorem witness_SettleDelayAnswersMilliseconds :
    ((0x11000001#32).extractLsb' 24 8 = 0x11#8 ∧ (0x11000001#32).extractLsb' 0 24 ≠ 0#24) ∧
    ((0x11800000#32).extractLsb' 24 8 = 0x11#8 ∧ (0x11800000#32).extractLsb' 0 24 ≠ 0#24) := by decide

theorem witness_ResBitsAnswersTheBitCount :
    ((0x12000001#32).extractLsb' 24 8 = 0x12#8 ∧ (0x12000001#32).extractLsb' 0 24 ≠ 0#24) ∧
    ((0x12800000#32).extractLsb' 24 8 = 0x12#8 ∧ (0x12800000#32).extractLsb' 0 24 ≠ 0#24) := by decide

theorem witness_MaxCodeAnswersTheLargestCode :
    ((0x13000001#32).extractLsb' 24 8 = 0x13#8 ∧ (0x13000001#32).extractLsb' 0 24 ≠ 0#24) ∧
    ((0x13800000#32).extractLsb' 24 8 = 0x13#8 ∧ (0x13800000#32).extractLsb' 0 24 ≠ 0#24) := by decide

theorem witness_MinCodeAnswersTheSmallestCode :
    ((0x14000001#32).extractLsb' 24 8 = 0x14#8 ∧ (0x14000001#32).extractLsb' 0 24 ≠ 0#24) ∧
    ((0x14800000#32).extractLsb' 24 8 = 0x14#8 ∧ (0x14800000#32).extractLsb' 0 24 ≠ 0#24) := by decide

theorem witness_CbFieldsDecodesEachField :
    ((0x00#8).extractLsb' 2 2 ≠ 3#2 ∧ (0xFB#8).extractLsb' 2 2 ≠ 3#2) ∧
    ((0x0C#8).extractLsb' 2 2 = 3#2 ∧ (0xFF#8).extractLsb' 2 2 = 3#2) ∧
    ((0x15000100#32).extractLsb' 24 8 = 0x15#8 ∧ (0x15000100#32).extractLsb' 8 16 ≠ 0#16) ∧
    ((0x15800000#32).extractLsb' 24 8 = 0x15#8 ∧ (0x15800000#32).extractLsb' 8 16 ≠ 0#16) := by decide

/-- Two configurations with one control byte; only `ADDR` differs. -/
theorem witness_ControlByteRoundTrip :
    cb (holding 0x68#8 .oneShot 3#2 .r16 3#2).cfg = cb (holding 0x00#8 .oneShot 3#2 .r16 3#2).cfg := by decide

theorem witness_StatusAnswersByteAndReady :
    ((0x20000100#32).extractLsb' 24 8 = 0x20#8 ∧ (0x20000100#32).extractLsb' 8 16 ≠ 0#16) ∧
    ((0x20800000#32).extractLsb' 24 8 = 0x20#8 ∧ (0x20800000#32).extractLsb' 8 16 ≠ 0#16) := by decide

theorem witness_UnpackSplitsTheFrame :
    (0x21000000#32).extractLsb' 24 8 = 0x21#8 ∧ (0x21FFFFFF#32).extractLsb' 24 8 = 0x21#8 := by decide

theorem witness_CalcVoltageConvertsExactly :
    ((0x30010000#32).extractLsb' 24 8 = 0x30#8 ∧ (0x30010000#32).extractLsb' 16 8 ≠ 0#8) ∧
    ((0x30800000#32).extractLsb' 24 8 = 0x30#8 ∧ (0x30800000#32).extractLsb' 16 8 ≠ 0#8) := by decide

theorem witness_MeasureGatesThenConverts :
    (0x31000000#32).extractLsb' 24 8 = 0x31#8 ∧ (0x31FFFFFF#32).extractLsb' 24 8 = 0x31#8 := by decide

theorem witness_MeasureIsUnpackThenCalcVoltage :
    (unpackAnswer 0x12347F#24).data.getLsbD 24 = true ∧ (unpackAnswer 0x123480#24).data.getLsbD 24 = false := by decide

/-- 8190 and -8190 at 14 bits; 8191 itself is saturated. -/
theorem witness_VoltageOddSymmetry :
    (0xE001#16).toInt = -(0x1FFF#16).toInt ∧ (0xE002#16).toInt = -(0x1FFE#16).toInt ∧
    volt .r14 0x1FFE#16 = ⟨.ok, 2047#32⟩ ∧ volt .r14 0xE002#16 = ⟨.ok, -2047#32⟩ := by decide

theorem witness_VoltageMonotoneAndLinear :
    (0x8001#16).toInt ≤ (0x7FFE#16).toInt ∧
    volt .r16 0x8001#16 = ⟨.ok, -2047#32⟩ ∧ volt .r16 0x7FFE#16 = ⟨.ok, 2047#32⟩ := by decide

theorem witness_VoltageWithinFullScale :
    InEffectiveRange .r12 0x07FE#16 ∧ volt .r12 0x07FE#16 = ⟨.ok, 2046#32⟩ ∧
    InEffectiveRange .r12 0xF801#16 ∧ volt .r12 0xF801#16 = ⟨.ok, -2047#32⟩ := by decide

theorem witness_BlockIsTheTotalFunction :
    State.reset.seq.phase.running = false ∧ (inPhase cfg0 .done [] []).seq.phase.running = false := by decide

theorem witness_ErrorAnswersChangeNothingElse :
    (volt .r12 0x07FF#16).code ≠ .ok := by decide

theorem witness_ReservedCodesAreNeverProduced :
    ∃ t : State, State.reset.response = none ∧ step State.reset = .next t := ⟨State.reset, rfl, rfl⟩

theorem witness_OnlyNamedCommandsWriteRegisters :
    ∃ t : State, exec (.setMode .continuous) State.reset = .next t ∧ t.cfg.mode ≠ State.reset.cfg.mode :=
  ⟨_, rfl, by decide⟩

theorem witness_EncoderCommandsArePure :
    WellFormed (.cbFields 0x00#8) ∧ ¬ WellFormed (.cbFields 0xFF#8) ∧ busy.cfg = (inPhase busy .done [] []).cfg :=
  by decide

theorem witness_StatusCommandsArePure :
    (0x20000000#32).extractLsb' 24 8 = 0x20#8 ∧ (0x20FFFFFF#32).extractLsb' 24 8 = 0x20#8 ∧
    (0x21FFFFFF#32).extractLsb' 24 8 = 0x21#8 := by decide

theorem witness_VoltageCommandsReadResOnly :
    busy.cfg.res = (holding 0x68#8 .oneShot 0#2 .r16 0#2).cfg.res ∧
    busy.cfg.gain ≠ (holding 0x68#8 .oneShot 0#2 .r16 0#2).cfg.gain := by decide

/-- One pair with different registers, one with the same. -/
theorem witness_ConfigurationCommandsCommute :
    (registerOf (.withResolution 1#2) = some .res ∧ registerOf (.withGain 2#2) = some .gain) ∧
    (registerOf (.withChannel 1#2) = some .chan ∧ registerOf (.setChannel 3#2) = some .chan) ∧
    WellFormed (.withResolution 1#2) ∧ WellFormed (.withGain 2#2) := by decide

/-- Words none of which is a `CREATE`, an illegal one among them. -/
theorem witness_AddrKeptUntilTheNextCreate :
    ∀ w ∈ [0x03000001#32, 0x01000200#32], ∀ b k, decode w ≠ .ok (.create b k) := by
  intro w hw b k
  simp only [List.mem_cons, List.not_mem_nil, or_false] at hw
  rcases hw with rfl | rfl
  · rw [show decode 0x03000001#32 = .ok (.withGain 1#2) by decide]
    simp
  · rw [show decode 0x01000200#32 = .error (.unusedBits "CREATE") by decide]
    simp

theorem witness_DecodeOfEncode :
    WellFormed (.create 0xFF#8 .continuous) ∧ WellFormed (.withResolution 2#2) ∧ WellFormed (.cbFields 0xFB#8) :=
  by decide

theorem witness_EncodeOfDecode :
    decode 0x010001FF#32 = .ok (.create 0xFF#8 .continuous) := by decide

theorem witness_StepRunsTheDecodedInstruction :
    (cfg0.present 0x07000000#32).events = .command 0x07000000#32 :: [] ∧ decode 0x07000000#32 = .ok .getAddr :=
  by decide

theorem witness_StepServesTheOldestRequest :
    State.reset.events = [] ∧ (cfg0.withEvents [.proceed]).events = .proceed :: [] ∧
    (((inPhase cfg0 (.reading .readPoll 0x68#8) [] []).withEvents [.await]).events = .await :: [] ∧
      ((inPhase cfg0 (.reading .readPoll 0x68#8) [] []).withEvents [.await]).seq.phase.running = true) ∧
    (((inPhase cfg0 .done [] []).withEvents [.await]).events = .await :: [] ∧
      ((inPhase cfg0 .done [] []).withEvents [.await]).seq.phase = .done) := by decide

theorem witness_FetchWordRunsNext :
    WellFormed .getAddr ∧ WellFormed (.measure 0xFFFFFF#24) := by decide

theorem witness_ResetIsCreate :
    (busy.withEvents [.reset 0x68#8 .oneShot]).events = .reset 0x68#8 .oneShot :: [] := by decide

theorem witness_OneShotRequestsAndSettles :
    (starting (cfg0.withEvents [.start .oneShot]) .oneShot ∧ cfg0.cfg.mode = .oneShot) ∧
    (atPhase (inPhase cfg0 (.requested .oneShot 0x68#8 0x80#8) [] [false]) (.requested .oneShot 0x68#8 0x80#8) ∧
      (inPhase cfg0 (.requested .oneShot 0x68#8 0x80#8) [] [false]).bus.nextAck = false) ∧
    (atPhase (inPhase cfg0 (.requested .oneShot 0x68#8 0x80#8) [] [true]) (.requested .oneShot 0x68#8 0x80#8) ∧
      (inPhase cfg0 (.requested .oneShot 0x68#8 0x80#8) [] [true]).bus.nextAck = true) ∧
    atPhase (inPhase cfg0 (.settling .oneShot 0x68#8 6) [] []) (.settling .oneShot 0x68#8 6) := by decide

theorem witness_ContinuousConfigurationWrite :
    (starting (busy.withEvents [.start .contConfig]) .contConfig ∧ busy.cfg.mode = .continuous) ∧
    (atPhase (inPhase busy (.requested .contConfig 0x00#8 0x7B#8) [] [false]) (.requested .contConfig 0x00#8 0x7B#8) ∧
      (inPhase busy (.requested .contConfig 0x00#8 0x7B#8) [] [false]).bus.nextAck = false) ∧
    (atPhase (inPhase busy (.requested .contConfig 0x00#8 0x7B#8) [] [true]) (.requested .contConfig 0x00#8 0x7B#8) ∧
      (inPhase busy (.requested .contConfig 0x00#8 0x7B#8) [] [true]).bus.nextAck = true) ∧
    atPhase (inPhase busy (.settling .contConfig 0x00#8 57) [] []) (.settling .contConfig 0x00#8 57) ∧
    atPhase (inPhase busy (.polling .contConfig 0x00#8 1) [] []) (.polling .contConfig 0x00#8 1) ∧
    (atPhase (inPhase busy (.reading .contConfig 0x00#8) [.bytes [0x00#8, 0x10#8, 0x7B#8]] [])
        (.reading .contConfig 0x00#8) ∧
      (inPhase busy (.reading .contConfig 0x00#8) [.bytes [0x00#8, 0x10#8, 0x7B#8]] []).nextFrame = some 0x00107B#24) ∧
    (inPhase busy (.reading .contConfig 0x00#8) [.busError] []).nextFrame = none := by decide

theorem witness_ReadAndPollLoop :
    starting (busy.withEvents [.start .readPoll]) .readPoll ∧
    (Sequence.readPoll ≠ .contConfig ∧ Sequence.oneShot ≠ .contConfig) ∧
    atPhase (inPhase busy (.reading .readPoll 0x00#8) [.bytes [0xFF#8, 0xF0#8, 0xFB#8]] [])
      (.reading .readPoll 0x00#8) ∧
    atPhase (inPhase cfg0 (.polling .oneShot 0x68#8 1) [] []) (.polling .oneShot 0x68#8 1) := by decide

theorem witness_FramesComeFromThreeBytes :
    ([] : List Byte).length ≠ 3 ∧ [0x04#8, 0x00#8].length ≠ 3 ∧ [0x04#8, 0x00#8, 0x00#8, 0x00#8].length ≠ 3 ∧
    atPhase (inPhase cfg0 (.reading .readPoll 0x68#8) [.bytes [0x04#8, 0x00#8]] []) (.reading .readPoll 0x68#8) ∧
    frameOf ((inPhase cfg0 (.reading .readPoll 0x68#8) [.bytes [0x04#8, 0x00#8]] []).bus.answerAt 0) = none := by decide

theorem witness_SequencesNeedTheirMode :
    (starting (busy.withEvents [.start .oneShot]) .oneShot ∧ busy.cfg.mode = .continuous) ∧
    (starting (cfg0.withEvents [.start .contConfig]) .contConfig ∧ cfg0.cfg.mode = .oneShot) ∧
    starting (cfg0.withEvents [.start .readPoll]) .readPoll := by decide

theorem witness_SequencesWriteNoRegister :
    ∃ t : State, (∀ e ∈ (cfg0.withEvents [.start .oneShot]).events.head?, isSequencerRequest e = true) ∧
    step (cfg0.withEvents [.start .oneShot]) = .next t := ⟨_, by decide, rfl⟩

/-- A sequence that has polled once, and its next step. -/
theorem witness_EveryStepKeepsTheTraceInOrder :
    ∃ s t : State, InOrder s.seq ∧ s.seq.phase = .polling .readPoll 0x68#8 1 ∧ step s = .next t := by
  refine ⟨{ cfg0 with seq := ⟨.polling .readPoll 0x68#8 1, some .readPoll, none, [.read 0x68#8 (some 0x000080#24)], false⟩ }, _,
    ⟨rfl, rfl, rfl, 0#8, .r12, [], 0x000080#24, ?_, by decide, rfl⟩, rfl, rfl⟩
  intro f hf
  cases hf

/-- T11 of 95: two of its frames. -/
theorem witness_PollLoopReadsOncePerFrame :
    AllNotReady [0xFFF0FB#24] ∧ FrameReady 0xFFEF7B#24 ∧
    atPhase (inPhase busy (.reading .readPoll 0x68#8) [busBytes 0xFFF0FB#24, busBytes 0xFFEF7B#24] [])
      (.reading .readPoll 0x68#8) ∧
    (inPhase busy (.reading .readPoll 0x68#8) [busBytes 0xFFF0FB#24, busBytes 0xFFEF7B#24] []).bus.readStub =
      [0xFFF0FB#24].map busBytes ++ busBytes 0xFFEF7B#24 :: [] := by
  refine ⟨?_, by decide, ⟨rfl, rfl, rfl⟩, rfl⟩
  intro f hf
  rw [List.mem_singleton.mp hf]
  decide

/-- T2 of 95, with one frame that is not ready. -/
theorem witness_OneShotTrace :
    AllNotReady [0x000080#24] ∧ FrameReady 0xFC0000#24 ∧
    ((inPhase cfg0 .idle [busBytes 0x000080#24, busBytes 0xFC0000#24] [true]).withEvents [.start .oneShot]).bus =
      ⟨[0x000080#24].map busBytes ++ busBytes 0xFC0000#24 :: [], true :: [], 0, 0, cfg0.bus.control⟩ ∧
    starting ((inPhase cfg0 .idle [busBytes 0x000080#24, busBytes 0xFC0000#24] [true]).withEvents [.start .oneShot])
      .oneShot ∧
    cfg0.cfg.mode = .oneShot := by
  refine ⟨?_, by decide, rfl, ⟨rfl, rfl⟩, rfl⟩
  intro f hf
  rw [List.mem_singleton.mp hf]
  decide

/-- T13 of 95: a device that is not ready, as far as the stub goes. -/
theorem witness_PollLoopHasNoBound :
    atPhase (inPhase busy (.reading .readPoll 0x68#8) [busBytes 0x0000FB#24, busBytes 0x0000FB#24] [])
      (.reading .readPoll 0x68#8) ∧
    ∀ k < 2, ∃ f, frameOf ((inPhase busy (.reading .readPoll 0x68#8)
      [busBytes 0x0000FB#24, busBytes 0x0000FB#24] []).bus.answerAt k) = some f ∧ ready (frameStatus f) = false := by
  refine ⟨⟨rfl, rfl, rfl⟩, fun k hk => ?_⟩
  refine ⟨0x0000FB#24, ?_, by decide⟩
  match k, hk with
  | 0, _ => decide
  | 1, _ => decide

/-- A device that is ready at its second answer. -/
theorem witness_PollLoopEndsWhenEventuallyReady :
    atPhase (inPhase busy (.reading .readPoll 0x68#8) [busBytes 0x0000FB#24, busBytes 0x00107B#24] [])
      (.reading .readPoll 0x68#8) ∧
    EventuallyReady (inPhase busy (.reading .readPoll 0x68#8) [busBytes 0x0000FB#24, busBytes 0x00107B#24] []).bus := by
  refine ⟨⟨rfl, rfl, rfl⟩, 1, ?_⟩
  intro f hf
  have h : frameOf ((inPhase busy (.reading .readPoll 0x68#8)
      [busBytes 0x0000FB#24, busBytes 0x00107B#24] []).bus.answerAt 1) = some 0x00107B#24 := by decide
  rw [h] at hf
  cases hf
  decide

theorem witness_ConfigurationDuringSequenceEndsItsMeaning :
    (inPhase cfg0 (.settling .oneShot 0x68#8 6) [] []).seq.phase.running = true ∧
    writesConfiguration (.withResolution 2#2) = true ∧ WellFormed (.withResolution 2#2) := by decide

theorem witness_ControlByteValues :
    cb (holding 0x68#8 .oneShot 3#2 .r16 3#2).cfg = 0xEB#8 ∧ (0xEB#8).getLsbD 7 = !(0xEB#8).getLsbD 4 ∧
    (0xEB#8).extractLsb' 2 2 ≠ 3#2 := by decide

/-- A write that is acknowledged and one that fails. -/
theorem witness_DeviceRegisterChangesOnlyByAWrite :
    ∃ t u : State,
    step (inPhase busy (.requested .contConfig 0x00#8 0x7B#8) [] [true]) = .next t ∧
    (inPhase busy (.requested .contConfig 0x00#8 0x7B#8) [] [true]).bus.nextAck = true ∧
    t.bus.control ≠ busy.bus.control ∧
    (∀ e ∈ (inPhase busy (.requested .contConfig 0x00#8 0x7B#8) [] [true]).events.head?,
      e = .proceed ∨ e = .await) ∧
    step (inPhase busy (.requested .contConfig 0x00#8 0x7B#8) [] [false]) = .next u ∧
    (inPhase busy (.requested .contConfig 0x00#8 0x7B#8) [] [false]).bus.nextAck = false :=
  ⟨_, _, rfl, rfl, by decide, by decide, rfl, rfl⟩

/-- `SET_CHANNEL`, and the start of a sequence. -/
theorem witness_AddrKeptByEveryOtherStep :
    (∃ t : State, step (busy.present 0x05000001#32) = .next t ∧ t.cfg ≠ busy.cfg ∧
      ∀ e ∈ (busy.present 0x05000001#32).events.head?,
        (∀ w, e = .command w → ∀ b m, decode w ≠ .ok (.create b m)) ∧ ∀ b m, e ≠ .reset b m) ∧
    (∃ t : State, step (busy.withEvents [.start .readPoll]) = .next t ∧
      ∀ e ∈ (busy.withEvents [.start .readPoll]).events.head?,
        (∀ w, e = .command w → ∀ b m, decode w ≠ .ok (.create b m)) ∧ ∀ b m, e ≠ .reset b m) := by
  refine ⟨⟨_, rfl, by decide, ?_⟩, ⟨_, rfl, ?_⟩⟩
  · rintro e ⟨⟩
    refine ⟨?_, by simp⟩
    rintro w ⟨⟩ b m
    rw [show decode 0x05000001#32 = .ok (.setChannel 1#2) by decide]
    simp
  · rintro e ⟨⟩
    simp

end Sys2Proof.Tests
end

/-! The device's control register (20_memory.md R41, R54): what a move of the sequencer leaves in it, what a step
leaves in it, and O59. -/

namespace Sys2Proof.Proofs.Memory

open Sys2Proof.Machine Sys2Proof.Laws

/-- Channel, resolution and gain stand in the register at the places of 30_encoding.md R61, clear of the two bits that
are open at power-on. -/
theorem powerOnControl_fields (mode : Mode) (start : BitVec 1) :
    (powerOnControl mode start).extractLsb' 5 2 = 0#2 ∧
    (powerOnControl mode start).extractLsb' 2 2 = Resolution.r12.code ∧
    (powerOnControl mode start).extractLsb' 0 2 = 0#2 := by
  revert start
  cases mode with
  | oneShot => decide
  | continuous => decide

@[simp] theorem afterWrite_bus_writes (q : Sequence) (a b : Byte) (s : State) :
    (afterWrite q a b s).bus.writes = s.bus.writes + 1 := by
  rw [afterWrite_bus]

theorem afterWrite_bus_control_of_nextAck {s : State} (q : Sequence) (a b : Byte) (hack : s.bus.nextAck = true) :
    (afterWrite q a b s).bus.control = b := by
  rw [afterWrite_bus]
  exact if_pos hack

theorem move_requested {s : State} {q : Sequence} {a b : Byte} (hp : s.seq.phase = .requested q a b) :
    move s = afterWrite q a b s := by
  simp only [move, hp]

/-- Of all phases only `Requested` ends its work with a write; the move out of any other keeps the register. -/
theorem move_bus_control {s : State} (hp : ∀ q a b, s.seq.phase ≠ .requested q a b) :
    (move s).bus.control = s.bus.control := by
  unfold move
  split
  case h_1 => rfl
  case h_2 q a b h => exact absurd h (hp q a b)
  case h_3 => rfl
  case h_4 q a _ => rw [afterRead_bus, State.takeRead_bus_control]
  case h_5 => rfl
  case h_6 => rfl

/-- A step keeps the device's register, or is the end of the write in progress. -/
theorem step_control_kept_or_afterWrite {s t : State} (h : step s = .next t) :
    t.bus.control = s.bus.control ∨
    ∃ es q a b, s.seq.phase = .requested q a b ∧ t = afterWrite q a b (s.withEvents es) := by
  obtain ⟨w, rest, -, hd⟩ | ⟨q, rest, -, -, ⟨rfl, -⟩ | ⟨rfl, -⟩⟩ | ⟨es, rfl⟩ | ⟨rest, -, -, rfl⟩ |
    ⟨a, m, rest, -, rfl⟩ := step_cases h
  · obtain ⟨u, hu, -, hbus, -⟩ := deliver_frame w (s.withEvents rest)
    obtain rfl : u = t := by simpa [hu] using hd
    exact .inl (by rw [hbus, State.withEvents_bus])
  · exact .inl rfl
  · exact .inl rfl
  · by_cases hp : ∃ q a b, s.seq.phase = .requested q a b
    · obtain ⟨q, a, b, hp⟩ := hp
      exact .inr ⟨es, q, a, b, hp, move_requested hp⟩
    · push Not at hp
      exact .inl (move_bus_control (s := s.withEvents es) hp)
  · exact .inl rfl
  · exact .inl rfl

/-- While a write is in progress, a step that serves nothing, `proceed` or `await` ends that write. -/
theorem step_requested_eq_afterWrite {s t : State} {q : Sequence} {a b : Byte}
    (hhead : ∀ e ∈ s.events.head?, e = .proceed ∨ e = .await) (hp : s.seq.phase = .requested q a b)
    (h : step s = .next t) : ∃ es, t = afterWrite q a b (s.withEvents es) := by
  obtain ⟨w, rest, he, -⟩ | ⟨q', rest, he, -⟩ | ⟨es, rfl⟩ | ⟨rest, -, hdone, -⟩ | ⟨a', m, rest, he, -⟩ := step_cases h
  · simp [he] at hhead
  · simp [he] at hhead
  · exact ⟨es, move_requested hp⟩
  · simp [hp] at hdone
  · simp [he] at hhead

/-- Settles O59: a step keeps the register or ends the write in progress, and what an ended write leaves is
`afterWrite_bus`. -/
theorem deviceRegisterChangesOnlyByAWrite : Obligations.DeviceRegisterChangesOnlyByAWrite := by
  unfold Obligations.DeviceRegisterChangesOnlyByAWrite
  refine ⟨fun _ _ deviceMode start => powerOnControl_fields deviceMode start, ?_, ?_⟩
  · intro s t h
    obtain hkept | ⟨es, q, a, b, hp, rfl⟩ := step_control_kept_or_afterWrite h
    · exact .inl hkept
    · exact .inr ⟨q, a, b, hp, afterWrite_bus_writes q a b _,
        afterWrite_bus_control_of_nextAck (s := s.withEvents es) q a b⟩
  · intro s t q a b hhead hp hack h
    obtain ⟨es, rfl⟩ := step_requested_eq_afterWrite hhead hp h
    exact afterWrite_bus_control_of_nextAck (s := s.withEvents es) q a b hack

end Sys2Proof.Proofs.Memory

/-! The formats (30_encoding.md): the control byte's layout and O14, what each command does in the spec's closed forms,
the words that match a row of the opcode map, and O28 and O29. -/

namespace Sys2Proof.Proofs.Encoding

open Sys2Proof.Machine Sys2Proof.Laws Sys2Proof.Safety

/-! ## The control byte -/

section ControlByte

variable (start mode : BitVec 1) (chan res gain : BitVec 2)

theorem setWidth_controlConcat : (start ++ chan ++ mode ++ res ++ gain).setWidth 8 =
    (start.setWidth 8 <<< 7) ||| (chan.setWidth 8 <<< 5) ||| (mode.setWidth 8 <<< 4) ||| (res.setWidth 8 <<< 2)
      ||| gain.setWidth 8 := by
  simp only [BitVec.setWidth_append_eq_shiftLeft_setWidth_or, BitVec.shiftLeft_or_distrib, ← BitVec.shiftLeft_add]

theorem controlConcat_start : (start ++ chan ++ mode ++ res ++ gain).getLsbD 7 = start.getLsbD 0 := by
  simp only [BitVec.getLsbD_append]
  rfl

theorem controlConcat_chan : (start ++ chan ++ mode ++ res ++ gain).extractLsb' 5 2 = chan := by
  simp only [BitVec.extractLsb'_append_eq_of_le, Nat.reduceLeDiff, Nat.reduceSub, BitVec.extractLsb'_append_eq_right]

theorem controlConcat_mode : (start ++ chan ++ mode ++ res ++ gain).getLsbD 4 = mode.getLsbD 0 := by
  simp only [BitVec.getLsbD_append]
  rfl

theorem controlConcat_res : (start ++ chan ++ mode ++ res ++ gain).extractLsb' 2 2 = res := by
  simp only [BitVec.extractLsb'_append_eq_of_le, Nat.le_refl, Nat.sub_self, BitVec.extractLsb'_append_eq_right]

end ControlByte

/-- The OR of the shifted fields (R101) is their concatenation (R61). -/
theorem cb_eq_controlFields (c : Cfg) : cb c = controlFields c := by
  have hor := setWidth_controlConcat (start := match c.mode with | .oneShot => 1#1 | .continuous => 0#1)
    c.mode.bit c.chan c.res.code c.gain
  rw [BitVec.setWidth_eq] at hor
  refine Eq.trans ?_ hor.symm
  unfold cb
  cases c.mode <;> rfl

theorem controlFields_start (c : Cfg) : (controlFields c).getLsbD 7 = true ↔ c.mode = .oneShot := by
  rw [show (controlFields c).getLsbD 7 = _ from controlConcat_start _ _ _ _ _]
  cases c.mode <;> decide

theorem controlFields_mode (c : Cfg) : (controlFields c).getLsbD 4 = true ↔ c.mode = .continuous := by
  rw [show (controlFields c).getLsbD 4 = _ from controlConcat_mode _ _ _ _ _]
  cases c.mode <;> decide

/-- Settles O14, by `cb_eq_controlFields` and the place of each field in the concatenation. -/
theorem controlByteLayout : Obligations.ControlByteLayout := by
  unfold Obligations.ControlByteLayout
  intro c
  rw [cb_eq_controlFields]
  exact ⟨rfl, controlFields_start c, controlFields_mode c, controlConcat_chan _ _ _ _ _,
    controlConcat_res _ _ _ _ _, BitVec.extractLsb'_append_eq_right⟩

/-! ## The commands in closed form -/

theorem zext32_byte (b : Byte) : zext32 b = 0#24 ++ b := BitVec.setWidth_eq_append (by decide)

theorem zext32_half (h : BitVec 16) : zext32 h = 0#16 ++ h := BitVec.setWidth_eq_append (by decide)

/-- The configuration image (R78). -/
theorem image_eq_imageFields (c : Cfg) : image c = imageFields c := by
  rw [image, cb_eq_controlFields, zext32_half]
  exact (BitVec.append_assoc (x₁ := 0#16) (x₂ := c.addr) (x₃ := controlFields c)).symm

theorem sext32_maxcode (r : Resolution) : sext32 (maxcode r) = BitVec.ofInt 32 (topCode r) := by
  cases r <;> rfl

theorem sext32_mincode (r : Resolution) : sext32 (mincode r) = BitVec.ofInt 32 (bottomCode r) := by
  cases r <;> rfl

@[simp] theorem toInt_maxcode (r : Resolution) : (maxcode r).toInt = topCode r := by cases r <;> rfl

@[simp] theorem toInt_mincode (r : Resolution) : (mincode r).toInt = bottomCode r := by cases r <;> rfl

/-- The 32-bit product does not overflow (44_voltage_decoder.md R144). -/
theorem toInt_product (raw : Sample) : (product raw).toInt = raw.toInt * 4096 := by
  have hlo : -2 ^ 15 ≤ raw.toInt := BitVec.le_toInt raw
  have hhi : raw.toInt < 2 ^ 15 := BitVec.toInt_lt
  have hspan : (BitVec.ofNat 32 Config.spanMv).toInt = 4096 := rfl
  rw [product, sext32, BitVec.toInt_mul, BitVec.toInt_signExtend_of_le (by decide), hspan]
  exact Int.bmod_eq_of_le (by omega) (by omega)

theorem millivolts_eq (r : Resolution) (raw : Sample) :
    millivolts r raw = Int.tdiv (raw.toInt * 4096) (divisor r) := by
  rw [millivolts, tdiv_eq, toInt_product]
  cases r <;> rfl

/-- The voltage decoder is the exact one over the integers (44_voltage_decoder.md R141). -/
theorem volt_eq_exactVoltage (r : Resolution) (raw : Sample) : volt r raw = exactVoltage r raw := by
  simp [volt, exactVoltage, isOverRange, isUnderRange, millivolts_eq]

theorem measureAnswer_eq_exactMeasure (r : Resolution) (f : Frame) : measureAnswer r f =
    exactMeasure r (f.extractLsb' 16 8) (f.extractLsb' 8 8) (f.extractLsb' 0 8) := by
  have hraw : f.extractLsb' 16 8 ++ f.extractLsb' 8 8 = frameRaw f :=
    BitVec.extractLsb'_append_extractLsb'_eq_extractLsb' rfl
  rw [measureAnswer, exactMeasure, volt_eq_exactVoltage, ready_eq, hraw, frameStatus]
  cases (f.extractLsb' 0 8).getLsbD 7 <;> rfl

/-- The configuration and the answer that a command leaves, in the closed forms of `blockFunction`. -/
def commandEffect (c : Cfg) : Instr → Cfg × Response
  | .create addr mode => building (.default addr mode)
  | .withResolution res =>
    match resolutionOfCode res with
    | none => (c, ⟨.illegal, 0#32⟩)
    | some r => building { c with res := r }
  | .withGain gain => building { c with gain := gain }
  | .withChannel chan => building { c with chan := chan }
  | .setChannel chan => answering { c with chan := chan } 0#32
  | .setMode mode => answering { c with mode := mode } 0#32
  | .getAddr => answering c (0#24 ++ c.addr)
  | .controlByte => answering c (0#24 ++ controlFields c)
  | .settleDelay => answering c (BitVec.ofNat 32 (settleMs c.res))
  | .resBits => answering c (BitVec.ofNat 32 (bitsOf c.res))
  | .maxCode => answering c (BitVec.ofInt 32 (topCode c.res))
  | .minCode => answering c (BitVec.ofInt 32 (bottomCode c.res))
  | .cbFields b => if byteRes b = 3#2 then (c, ⟨.illegal, 0#32⟩) else answering c (fieldImage b)
  | .status b => answering c (0#23 ++ ~~~(b.extractLsb' 7 1) ++ b)
  | .unpack f => answering c (0#7 ++ ~~~(f.extractLsb' 7 1) ++ f.extractLsb' 0 8 ++ f.extractLsb' 8 16)
  | .calcVoltage raw => (c, exactVoltage c.res raw)
  | .measure f => (c, exactMeasure c.res (f.extractLsb' 16 8) (f.extractLsb' 8 8) (f.extractLsb' 0 8))

theorem buildCfg_eq (c : Cfg) (s : State) :
    buildCfg c s = .next ((s.withCfg (building c).1).answer (building c).2) := by
  rw [buildCfg, image_eq_imageFields]
  rfl

/-- What every command does: it leaves the configuration and the answer of `commandEffect`, and the rest as it was. -/
theorem exec_eq_commandEffect (i : Instr) (s : State) :
    exec i s = .next ((s.withCfg (commandEffect s.cfg i).1).answer (commandEffect s.cfg i).2) := by
  cases i with
  | create addr mode => exact buildCfg_eq _ s
  | withResolution res =>
    simp only [exec, execWithResolution, commandEffect]
    cases resolutionOfCode res with
    | none => rfl
    | some r => exact buildCfg_eq _ s
  | withGain gain => exact buildCfg_eq _ s
  | withChannel chan => exact buildCfg_eq _ s
  | setChannel chan => rfl
  | setMode mode => rfl
  | getAddr => simp only [exec, execGetAddr, getAddrAnswer, zext32_byte]; rfl
  | controlByte =>
    simp only [exec, execControlByte, controlByteAnswer, zext32_byte, cb_eq_controlFields]; rfl
  | settleDelay =>
    simp only [exec, execSettleDelay, settleDelayAnswer, commandEffect]
    cases s.cfg.res <;> rfl
  | resBits => rfl
  | maxCode => simp only [exec, execMaxCode, sext32_maxcode]; rfl
  | minCode => simp only [exec, execMinCode, sext32_mincode]; rfl
  | cbFields b =>
    simp only [exec, execCbFields, commandEffect]
    split <;> rfl
  | status b => simp only [exec, execStatus, statusAnswer, readyBit_eq]; rfl
  | unpack f =>
    have htop : (frameStatus f).extractLsb' 7 1 = f.extractLsb' 7 1 :=
      BitVec.extractLsb'_extractLsb'_of_le (by decide)
    simp only [exec, execUnpack, unpackAnswer, readyBit_eq, htop]; rfl
  | calcVoltage raw => simp only [exec, execCalcVoltage, volt_eq_exactVoltage]; rfl
  | measure f => simp only [exec, execMeasure, measureAnswer_eq_exactMeasure]; rfl

theorem exactVoltage_code_ne_illegal (r : Resolution) (raw : Sample) : (exactVoltage r raw).code ≠ .illegal := by
  unfold exactVoltage
  split
  · decide
  · split <;> simp

theorem wellFormed_withResolution (res : BitVec 2) : WellFormed (.withResolution res) ↔ res ≠ 3#2 := bne_iff_ne

theorem wellFormed_cbFields (b : Byte) : WellFormed (.cbFields b) ↔ byteRes b ≠ 3#2 := bne_iff_ne

/-- A well-formed command is not answered `ILLEGAL`. -/
theorem commandEffect_of_wellFormed (c : Cfg) {i : Instr} (hwf : WellFormed i) :
    (commandEffect c i).2.code ≠ .illegal := by
  cases i with
  | withResolution res =>
    cases h : resolutionOfCode res with
    | none => exact absurd (resolutionOfCode_none.mp h) ((wellFormed_withResolution res).mp hwf)
    | some r => simp [commandEffect, h, building]
  | cbFields b =>
    simp [commandEffect, (wellFormed_cbFields b).mp hwf, answering]
  | calcVoltage raw => exact exactVoltage_code_ne_illegal _ _
  | measure f =>
    simp only [commandEffect, exactMeasure]
    split
    · decide
    · exact exactVoltage_code_ne_illegal _ _
  | _ => simp [commandEffect, building, answering]

/-- A reserved operand value (30_encoding.md R74 case 3) is answered `ILLEGAL`, and nothing else happens. -/
theorem commandEffect_of_not_wellFormed (c : Cfg) {i : Instr} (hwf : ¬ WellFormed i) :
    commandEffect c i = (c, ⟨.illegal, 0#32⟩) := by
  cases i with
  | withResolution res =>
    obtain rfl : res = 3#2 := by simpa [wellFormed_withResolution] using hwf
    rfl
  | cbFields b =>
    exact if_pos (by simpa [wellFormed_cbFields] using hwf)
  | _ => exact absurd rfl hwf

/-! ## The fields of a word -/

theorem word_eq_iff (w v : Word) : w = v ↔ opField w = opField v ∧ argField w = argField v := by
  refine ⟨fun h => h ▸ ⟨rfl, rfl⟩, fun ⟨hop, harg⟩ => ?_⟩
  rw [← opField_argField w, ← opField_argField v, hop, harg]

theorem opField_and (w m : Word) : opField (w &&& m) = opField w &&& opField m := BitVec.extractLsb'_and

theorem argField_and (w m : Word) : argField (w &&& m) = argField w &&& argField m := BitVec.extractLsb'_and

theorem masked_eq_iff (w m v : Word) :
    w &&& m = v ↔ opField w &&& opField m = opField v ∧ argField w &&& argField m = argField v := by
  rw [word_eq_iff, opField_and, argField_and]

@[simp] theorem opField_ofNat (n : Nat) : opField (BitVec.ofNat 32 n) = BitVec.ofNat 8 (n / 2 ^ 24) := by
  apply BitVec.eq_of_toNat_eq
  simp only [opField, BitVec.extractLsb'_toNat, BitVec.toNat_ofNat]
  omega

@[simp] theorem argField_ofNat (n : Nat) : argField (BitVec.ofNat 32 n) = BitVec.ofNat 24 n := by
  apply BitVec.eq_of_toNat_eq
  simp only [argField, BitVec.extractLsb'_toNat, BitVec.toNat_ofNat]
  omega

@[simp] theorem and_allOp (op : Byte) : op &&& 0xFF#8 = op := BitVec.and_allOnes

@[simp] theorem and_allArg (a : BitVec 24) : a &&& 0xFFFFFF#24 = a := BitVec.and_allOnes

theorem extractLsb'_argField (w : Word) {k n : Nat} (h : k + n ≤ 24) :
    (argField w).extractLsb' k n = w.extractLsb' k n := BitVec.extractLsb'_extractLsb'_of_le h

@[simp] theorem argAddr_argField (w : Word) : argAddr (argField w) = w.extractLsb' 0 8 :=
  extractLsb'_argField w (by decide)

@[simp] theorem argByte_argField (w : Word) : argByte (argField w) = w.extractLsb' 0 8 :=
  extractLsb'_argField w (by decide)

@[simp] theorem argCode_argField (w : Word) : argCode (argField w) = w.extractLsb' 0 2 :=
  extractLsb'_argField w (by decide)

@[simp] theorem argRaw_argField (w : Word) : argRaw (argField w) = w.extractLsb' 0 16 :=
  extractLsb'_argField w (by decide)

@[simp] theorem argCreateMode_argField (w : Word) :
    argCreateMode (argField w) = if w.getLsbD 8 then .continuous else .oneShot := by
  have hbit : w.extractLsb' 8 1 = BitVec.ofBool (w.getLsbD 8) := by
    apply BitVec.eq_of_getLsbD_eq
    intro i hi
    obtain rfl : i = 0 := by omega
    simp
  rw [argCreateMode, extractLsb'_argField w (by decide), hbit]
  cases w.getLsbD 8 <;> rfl

/-- With the bits above the low `n` clear, an operand field is its low `n` bits. -/
theorem eq_append_of_masked {m n : Nat} {a : BitVec (m + n)} (h : a &&& (BitVec.allOnes m ++ 0#n) = 0#(m + n)) :
    a = 0#m ++ a.extractLsb' 0 n := by
  have hsplit : a.extractLsb' n m ++ a.extractLsb' 0 n = a := BitVec.extractLsb'_append_extractLsb'
  have hhigh : a.extractLsb' n m = 0#m := by
    rw [← hsplit, masked_append] at h
    simpa [BitVec.extractLsb'_append_eq_left] using congrArg (BitVec.extractLsb' n m) h
  rw [hhigh] at hsplit
  exact hsplit.symm

theorem eq_code_of_masked {a : BitVec 24} (h : a &&& 0xFFFFFC#24 = 0#24) : a = 0#22 ++ argCode a :=
  eq_append_of_masked (m := 22) (n := 2) h

theorem ne_of_masked {a v m : BitVec 24} (ha : ¬ a &&& m = 0#24) (hv : v &&& m = 0#24) : a ≠ v :=
  fun h => ha (h ▸ hv)

/-! ## The words that match a row -/

/-- A row's match holds its opcode and no operand bits, and its mask covers the whole opcode. -/
theorem opcodeMap_fields : ∀ row ∈ opcodeMap,
    opField row.mask = 0xFF#8 ∧ opField row.value = row.op ∧ argField row.value = 0#24 := by
  decide

/-- Each opcode has one row (R71). -/
theorem findRow_of_mem {row : Row} (h : row ∈ opcodeMap) : findRow row.op = some row := by
  cases hf : findRow row.op with
  | none => exact absurd rfl ((findRow_none_iff _).mp hf row h)
  | some found =>
    obtain ⟨hmem, hop⟩ := findRow_some hf
    rw [List.inj_on_of_nodup_map opcodeMap_distinct hmem h hop]

/-- A word matches a row exactly when it has the row's opcode and no bit of `arg` that the row masks. -/
theorem matches_row_iff {row : Row} (hmem : row ∈ opcodeMap) (w : Word) :
    w &&& row.mask = row.value ↔ opField w = row.op ∧ argField w &&& argField row.mask = 0#24 := by
  obtain ⟨hmask, hop, harg⟩ := opcodeMap_fields row hmem
  rw [masked_eq_iff, hmask, hop, harg, and_allOp]

theorem findRow_of_matches {row : Row} (hmem : row ∈ opcodeMap) {w : Word} (hw : w &&& row.mask = row.value) :
    findRow (opField w) = some row := by
  rw [((matches_row_iff hmem w).mp hw).1, findRow_of_mem hmem]

/-- Decoding a word that matches a row: the row's operands, unless one holds a reserved value. -/
theorem decode_of_matches {row : Row} (hmem : row ∈ opcodeMap) {w : Word} (hw : w &&& row.mask = row.value) :
    decode w = if (row.build (argField w)).wellFormed then .ok (row.build (argField w))
      else .error (.reservedOperand row.mnemonic) := by
  rw [decode_row (findRow_of_matches hmem hw), if_neg (not_not.mpr hw)]

/-- A word that matches no row does not decode. -/
theorem decode_of_no_match {w : Word} (h : ∀ row ∈ opcodeMap, w &&& row.mask ≠ row.value) :
    ∃ e, decode w = .error e := by
  cases hr : findRow (opField w) with
  | none => exact ⟨_, decode_unknown hr⟩
  | some row => exact ⟨_, (decode_row hr).trans (if_pos (h row (findRow_some hr).1))⟩

/-- A word does not decode exactly when it matches no row, or matches one with a reserved operand value. -/
theorem decode_error_iff (w : Word) : (∃ e, decode w = .error e) ↔
    (∀ row ∈ opcodeMap, w &&& row.mask ≠ row.value) ∨
    ∃ row ∈ opcodeMap, w &&& row.mask = row.value ∧ ¬ WellFormed (row.build (argField w)) := by
  constructor
  · rintro ⟨e, he⟩
    by_contra hno
    push Not at hno
    obtain ⟨⟨row, hmem, hw⟩, hwf⟩ := hno
    rw [decode_of_matches hmem hw, if_pos (hwf row hmem hw)] at he
    cases he
  · rintro (hno | ⟨row, hmem, hw, hwf⟩)
    · exact decode_of_no_match hno
    · exact ⟨_, (decode_of_matches hmem hw).trans (if_neg hwf)⟩

/-! ## The block as a function of the configuration and the word -/

/-- On the words of the row's opcode, `blockFunction` is the effect of the row's command, or `ILLEGAL` where an unused
bit is 1. -/
def BlockFunctionAgrees (row : Row) : Prop :=
  ∀ (c : Cfg) (w : Word), opField w = row.op → blockFunction c w =
    if argField w &&& argField row.mask = 0#24 then commandEffect c (row.build (argField w))
    else (c, ⟨.illegal, 0#32⟩)

/-- `blockFunction` lists the three words of `WITH_RESOLUTION`; the map has one row, with the code as operand. -/
theorem withResolution_words (c : Cfg) (a : BitVec 24) :
    (if a = 0#24 then building { c with res := .r12 }
      else if a = 1#24 then building { c with res := .r14 }
      else if a = 2#24 then building { c with res := .r16 }
      else (c, ⟨.illegal, 0#32⟩)) =
    if a &&& 0xFFFFFC#24 = 0#24 then commandEffect c (.withResolution (argCode a)) else (c, ⟨.illegal, 0#32⟩) := by
  by_cases h : a &&& 0xFFFFFC#24 = 0#24
  · rw [if_pos h, eq_code_of_masked h, argCode_append]
    generalize argCode a = code
    fin_cases code <;> rfl
  · rw [if_neg h, if_neg (ne_of_masked h rfl), if_neg (ne_of_masked h rfl), if_neg (ne_of_masked h rfl)]

/-- `blockFunction` lists the two words of `SET_MODE`; the map has one row, with the mode bit as operand. -/
theorem setMode_words (c : Cfg) (a : BitVec 24) :
    (if a = 0#24 then answering { c with mode := .oneShot } 0#32
      else if a = 1#24 then answering { c with mode := .continuous } 0#32
      else (c, ⟨.illegal, 0#32⟩)) =
    if a &&& 0xFFFFFE#24 = 0#24 then commandEffect c (.setMode (argMode a)) else (c, ⟨.illegal, 0#32⟩) := by
  by_cases h : a &&& 0xFFFFFE#24 = 0#24
  · have hbit : a = 0#23 ++ a.extractLsb' 0 1 := eq_append_of_masked (m := 23) (n := 1) h
    rw [if_pos h, hbit]
    generalize a.extractLsb' 0 1 = bit
    fin_cases bit <;> rfl
  · rw [if_neg h, if_neg (ne_of_masked h rfl), if_neg (ne_of_masked h rfl)]

theorem commandEffect_cbFields_word (c : Cfg) (w : Word) : commandEffect c (.cbFields (w.extractLsb' 0 8)) =
    if w.extractLsb' 2 2 = 3#2 then (c, ⟨.illegal, 0#32⟩)
    else answering c (0#15 ++ w.extractLsb' 7 1 ++ 0#2 ++ w.extractLsb' 5 2 ++ 0#3 ++ w.extractLsb' 4 1 ++ 0#2
      ++ w.extractLsb' 2 2 ++ 0#2 ++ w.extractLsb' 0 2) := by
  simp only [commandEffect, fieldImage, byteTop, byteChan, byteMode, byteRes, byteGain,
    BitVec.extractLsb'_extractLsb'_of_le, Nat.reduceAdd, Nat.reduceLeDiff]

theorem blockFunctionAgrees_configuration : ∀ row ∈ configurationRows, BlockFunctionAgrees row := by
  simp only [configurationRows, List.forall_mem_cons]
  refine ⟨?create, ?withResolution, ?withGain, ?withChannel, ?setChannel, ?setMode, ?getAddr, List.forall_mem_nil _⟩
  all_goals intro c w hop
  case withResolution =>
    simpa [blockFunction, masked_eq_iff w, word_eq_iff w, hop] using withResolution_words c (argField w)
  case setMode => simpa [blockFunction, masked_eq_iff w, word_eq_iff w, hop] using setMode_words c (argField w)
  case create | withGain | withChannel | setChannel | getAddr =>
    simp [blockFunction, masked_eq_iff w, word_eq_iff w, hop, commandEffect, Cfg.default]

theorem blockFunctionAgrees_encoder : ∀ row ∈ encoderRows, BlockFunctionAgrees row := by
  simp only [encoderRows, List.forall_mem_cons]
  refine ⟨?controlByte, ?settleDelay, ?resBits, ?maxCode, ?minCode, ?cbFields, List.forall_mem_nil _⟩
  all_goals intro c w hop
  case controlByte | settleDelay | maxCode | minCode =>
    simp [blockFunction, masked_eq_iff w, word_eq_iff w, hop, commandEffect]
  case resBits =>
    cases hres : c.res <;>
      simp [blockFunction, masked_eq_iff w, word_eq_iff w, hop, commandEffect, hres, bitsOf, resolutionRow]
  case cbFields =>
    simp [blockFunction, masked_eq_iff w, word_eq_iff w, hop, commandEffect_cbFields_word, ite_and]

theorem blockFunctionAgrees_decoder : ∀ row ∈ decoderRows, BlockFunctionAgrees row := by
  simp only [decoderRows, List.forall_mem_cons]
  refine ⟨?status, ?unpack, ?calcVoltage, ?measure, List.forall_mem_nil _⟩
  all_goals intro c w hop
  case status =>
    simp [blockFunction, masked_eq_iff w, word_eq_iff w, hop, commandEffect, BitVec.extractLsb'_extractLsb'_of_le]
  case calcVoltage => simp [blockFunction, masked_eq_iff w, word_eq_iff w, hop, commandEffect]
  case unpack | measure =>
    simp [blockFunction, masked_eq_iff w, word_eq_iff w, hop, commandEffect, extractLsb'_argField]

theorem blockFunctionAgrees : ∀ row ∈ opcodeMap, BlockFunctionAgrees row := by
  intro row hmem
  rw [opcodeMap, List.mem_append, List.mem_append] at hmem
  obtain (h | h) | h := hmem
  · exact blockFunctionAgrees_configuration row h
  · exact blockFunctionAgrees_encoder row h
  · exact blockFunctionAgrees_decoder row h

/-- A word of no command's opcode is illegal. -/
theorem blockFunction_of_findRow_none {w : Word} (h : findRow (opField w) = none) (c : Cfg) :
    blockFunction c w = (c, ⟨.illegal, 0#32⟩) := by
  have hne : ∀ row ∈ opcodeMap, opField w ≠ row.op := fun row hmem =>
    ((findRow_none_iff _).mp h row hmem).symm
  simp only [opcodeMap, configurationRows, encoderRows, decoderRows, List.forall_mem_append,
    List.forall_mem_cons] at hne
  simp [blockFunction, masked_eq_iff w, word_eq_iff w, hne]

/-- Delivering a word that matches a row, outside a running sequence. -/
theorem deliver_of_matches {row : Row} (hmem : row ∈ opcodeMap) {w : Word} (hw : w &&& row.mask = row.value)
    {s : State} (hidle : s.seq.phase.running = false) :
    deliver w s = .next ((s.withCfg (commandEffect s.cfg (row.build (argField w))).1).answer
      (commandEffect s.cfg (row.build (argField w))).2) := by
  have hdec := decode_of_matches hmem hw
  by_cases hwf : WellFormed (row.build (argField w))
  · rw [if_pos hwf] at hdec
    rw [deliver_ok hdec, noteCommand_idle hidle, exec_eq_commandEffect]
  · rw [if_neg hwf] at hdec
    rw [deliver_error hdec, commandEffect_of_not_wellFormed s.cfg hwf]
    rfl

/-- Settles O28, by the opcode: no row, a row that the word does not match, or a row that it matches. -/
theorem blockIsTheTotalFunction : Obligations.BlockIsTheTotalFunction := by
  unfold Obligations.BlockIsTheTotalFunction
  intro s w hidle
  rw [step_present]
  cases hr : findRow (opField w) with
  | none =>
    rw [blockFunction_of_findRow_none hr, deliver_error (decode_unknown hr)]
    rfl
  | some row =>
    obtain ⟨hmem, hop⟩ := findRow_some hr
    rw [blockFunctionAgrees row hmem s.cfg w hop.symm]
    by_cases hw : w &&& row.mask = row.value
    · rw [if_pos ((matches_row_iff hmem w).mp hw).2, deliver_of_matches hmem hw hidle]
      rfl
    · have hunused : ¬ argField w &&& argField row.mask = 0#24 := fun h =>
        hw ((matches_row_iff hmem w).mpr ⟨hop.symm, h⟩)
      rw [if_neg hunused, deliver_error ((decode_row hr).trans (if_pos hw))]
      rfl

/-! ## The illegal words -/

/-- A word is answered `ILLEGAL` in every state exactly when it does not decode. -/
theorem answeredIllegal_iff (w : Word) : AnsweredIllegal w ↔ ∃ e, decode w = .error e := by
  constructor
  · intro hill
    cases hd : decode w with
    | error e => exact ⟨e, rfl⟩
    | ok i =>
      have hstep := hill State.reset
      rw [step_present, deliver_ok hd, exec_eq_commandEffect] at hstep
      have hresp : some (commandEffect _ i).2 = some ⟨.illegal, 0#32⟩ :=
        congrArg State.response (Host.Outcome.next.inj hstep)
      have hcode := congrArg Response.code (Option.some.inj hresp)
      exact absurd hcode (commandEffect_of_wellFormed _ (decode_wellFormed hd))
  · rintro ⟨e, he⟩ s
    exact deliver_error he s

/-- R74 case 1. -/
theorem findRow_none_iff_outsideTheMap (op : Byte) : findRow op = none ↔ outsideTheMap op.toNat := by
  rw [findRow_none_iff]
  simp only [opcodeMap, configurationRows, encoderRows, decoderRows, List.forall_mem_append, List.forall_mem_cons,
    List.not_mem_nil, false_implies, implies_true, and_true, outsideTheMap, ne_eq, ← BitVec.toNat_inj,
    BitVec.toNat_ofNat]
  have hlt : op.toNat < 256 := op.isLt
  omega

/-- The spec's table of unused bits is the masks of the rows that leave some bit unused. -/
theorem unusedArgBits_eq : unusedArgBits =
    (opcodeMap.map fun row => (row.op, argField row.mask)).filter fun p => p.2 != 0#24 := by
  decide

/-- R74 case 2, read from the rows. -/
theorem unusedBit_iff (op : Byte) (a : BitVec 24) : (∃ p ∈ unusedArgBits, p.1 = op ∧ a &&& p.2 ≠ 0#24) ↔
    ∃ row ∈ opcodeMap, row.op = op ∧ a &&& argField row.mask ≠ 0#24 := by
  rw [unusedArgBits_eq]
  constructor
  · rintro ⟨p, hp, hop, ha⟩
    obtain ⟨row, hmem, rfl⟩ := List.mem_map.mp (List.mem_of_mem_filter hp)
    exact ⟨row, hmem, hop, ha⟩
  · rintro ⟨row, hmem, hop, ha⟩
    have hmask : argField row.mask ≠ 0#24 := fun h => ha (by rw [h, BitVec.and_zero])
    exact ⟨_, List.mem_filter.mpr ⟨List.mem_map_of_mem hmem, bne_iff_ne.mpr hmask⟩, hop, ha⟩

/-- A word matches no row exactly when its opcode is in no row, or it sets a bit that its row does not use. -/
theorem no_match_iff (w : Word) : (∀ row ∈ opcodeMap, w &&& row.mask ≠ row.value) ↔
    findRow (opField w) = none ∨
    ∃ row ∈ opcodeMap, row.op = opField w ∧ argField w &&& argField row.mask ≠ 0#24 := by
  constructor
  · intro hno
    cases hr : findRow (opField w) with
    | none => exact .inl rfl
    | some row =>
      obtain ⟨hmem, hop⟩ := findRow_some hr
      exact .inr ⟨row, hmem, hop, fun ha => hno row hmem ((matches_row_iff hmem w).mpr ⟨hop.symm, ha⟩)⟩
  · rintro (hnone | ⟨row, hmem, hop, ha⟩) row' hmem' hw
    · rw [findRow_of_matches hmem' hw] at hnone
      cases hnone
    · obtain ⟨hop', ha'⟩ := (matches_row_iff hmem' w).mp hw
      have hsame := findRow_of_matches hmem' hw
      rw [← hop, findRow_of_mem hmem] at hsame
      cases hsame
      exact ha ha'

/-- The one reserved word of `WITH_RESOLUTION`, by its row and its operand. -/
theorem withResolution_reserved_iff (w : Word) :
    w &&& 0xFFFFFFFC#32 = 0x02000000#32 ∧ w.extractLsb' 0 2 = 3#2 ↔ w = 0x02000003#32 := by
  constructor
  · rintro ⟨hmask, hcode⟩
    obtain ⟨hop, harg⟩ := (masked_eq_iff _ _ _).mp hmask
    have ha := eq_code_of_masked harg
    rw [argCode_argField, hcode] at ha
    exact (word_eq_iff _ _).mpr ⟨by simpa using hop, ha⟩
  · rintro rfl
    decide

/-- R74 case 3: only `WITH_RESOLUTION` and `CB_FIELDS` have a reserved operand value. -/
theorem reserved_operand_iff (w : Word) :
    (∃ row ∈ opcodeMap, w &&& row.mask = row.value ∧ ¬ WellFormed (row.build (argField w))) ↔
    w = 0x02000003#32 ∨ (w &&& 0xFFFFFF00#32 = 0x15000000#32 ∧ w.extractLsb' 2 2 = 3#2) := by
  simp [opcodeMap, configurationRows, encoderRows, decoderRows, Instr.wellFormed,
    withResolution_reserved_iff]

/-- Settles O29, from the two ways in which a word does not decode. -/
theorem illegalWordsAreExactlyThreeCases : Obligations.IllegalWordsAreExactlyThreeCases := by
  unfold Obligations.IllegalWordsAreExactlyThreeCases
  intro w
  rw [answeredIllegal_iff, decode_error_iff, no_match_iff, reserved_operand_iff, ← unusedBit_iff,
    findRow_none_iff_outsideTheMap, or_assoc]
  rfl

end Sys2Proof.Proofs.Encoding

/-! The configuration commands (40_configuration.md): the words that decode to them and the words with an unused bit set,
what they write, the control byte after a change of mode, and O60 and O1 to O7. -/

namespace Sys2Proof.Proofs.Configuration

open Sys2Proof.Machine Sys2Proof.Laws Sys2Proof.Safety Sys2Proof.Proofs.Encoding

/-! ## `ADDR` over a step -/

/-- Of the seventeen commands only `CREATE` writes `ADDR` (40_configuration.md R98 law 3). -/
theorem commandEffect_addr (c : Cfg) {i : Instr} (hi : ∀ b m, i ≠ .create b m) :
    (commandEffect c i).1.addr = c.addr := by
  cases i with
  | create b m => exact absurd rfl (hi b m)
  | withResolution res =>
    simp only [commandEffect]
    cases resolutionOfCode res <;> rfl
  | cbFields b =>
    simp only [commandEffect]
    split <;> rfl
  | _ => rfl

theorem deliver_addr {w : Word} (hw : ∀ b m, decode w ≠ .ok (.create b m)) {s t : State}
    (h : deliver w s = .next t) : t.cfg.addr = s.cfg.addr := by
  cases hd : decode w with
  | error e =>
    rw [deliver_error hd] at h
    cases h
    rfl
  | ok i =>
    rw [deliver_ok hd, exec_eq_commandEffect] at h
    cases h
    have hi : ∀ b m, i ≠ .create b m := fun b m hbm => hw b m (hbm ▸ hd)
    rw [State.answer_cfg, State.withCfg_cfg, commandEffect_addr _ hi, noteCommand_cfg]

/-- Settles O60: of what a step can do, only a command word and a reset write a register. -/
theorem addrKeptByEveryOtherStep : Obligations.AddrKeptByEveryOtherStep := by
  unfold Obligations.AddrKeptByEveryOtherStep
  rintro _ s t rfl hhead h
  obtain ⟨w, rest, he, hd⟩ | ⟨q, rest, -, -, ⟨rfl, -⟩ | ⟨rfl, -⟩⟩ | ⟨es, rfl⟩ | ⟨rest, -, -, rfl⟩ |
    ⟨b, m, rest, he, rfl⟩ := step_cases h
  · obtain ⟨hcreate, -⟩ := hhead (.command w) (by simp [he])
    exact deliver_addr (s := s.withEvents rest) (hcreate w rfl) hd
  · rfl
  · rfl
  · rw [move_cfg, State.withEvents_cfg]
  · rfl
  · obtain ⟨-, hreset⟩ := hhead (.reset b m) (by simp [he])
    exact absurd rfl (hreset b m)

/-! ## The words of a command -/

/-- The encoding of an instruction decodes to it, unless an operand holds a reserved value. -/
theorem decode_of_eq_encode {w : Word} {i : Instr} (hword : w = encode i) (hrow : RowMatches.Statement i)
    (hwf : WellFormed i) : decode w = .ok i := by
  obtain ⟨row, hfind, hmask, hbuild⟩ := hrow
  rw [← opField_encode] at hfind
  rw [hword, decode_row hfind, argField_encode, hbuild, if_neg (not_not.mpr hmask), if_pos hwf]

/-- The Encoding line of R91 is the concatenation of opcode, zero bits and operands. -/
theorem createWord_eq_encode (addr : Byte) (mode : Mode) :
    0x01000000#32 ||| (mode.bit.setWidth 32 <<< 8) ||| addr.setWidth 32 = encode (.create addr mode) := by
  rw [← BitVec.setWidth_eq (encode (.create addr mode))]
  simp only [encode, opcodeOf, encodeArg, BitVec.setWidth_append_eq_shiftLeft_setWidth_or, ← BitVec.or_assoc]
  cases mode <;> rfl

/-- A bit of `arg` that the opcode's row masks makes the word illegal (30_encoding.md R74 case 2): here one of the `len`
bits from `lo` on. -/
theorem answeredIllegal_of_unusedBits {op : Byte} {row : Row} {lo len : Nat} (hrow : findRow op = some row)
    (hfit : lo + len ≤ 24) (hmask : (argField row.mask).extractLsb' lo len = BitVec.allOnes len) {w : Word}
    (hop : w.extractLsb' 24 8 = op) (hunused : w.extractLsb' lo len ≠ 0#len) : AnsweredIllegal w := by
  have hfind : findRow (opField w) = some row := by rwa [opField, hop]
  have hno : w &&& row.mask ≠ row.value := by
    intro hw
    have harg : argField w &&& argField row.mask = 0#24 := ((matches_row_iff (findRow_some hrow).1 w).mp hw).2
    have hbits := congrArg (BitVec.extractLsb' lo len) harg
    rw [BitVec.extractLsb'_and, hmask, BitVec.and_allOnes, extractLsb'_argField w hfit,
      BitVec.extractLsb'_zero] at hbits
    exact hunused hbits
  exact (answeredIllegal_iff w).mpr ⟨_, (decode_row hfind).trans (if_pos hno)⟩

/-! ## The commands -/

/-- Settles O1, by `createWord_eq_encode` and the effect of the command. -/
theorem createWritesAllFiveRegisters : Obligations.CreateWritesAllFiveRegisters := by
  unfold Obligations.CreateWritesAllFiveRegisters
  exact ⟨fun addr mode => decode_of_eq_encode (createWord_eq_encode addr mode) (RowMatches.create addr mode) rfl,
    fun _ _ s => exec_eq_commandEffect _ s,
    fun w => answeredIllegal_of_unusedBits rfl (by decide) rfl⟩

/-- Settles O2: a legal code is well-formed and selects its resolution, and the code 3 selects none. -/
theorem withResolutionWritesRes : Obligations.WithResolutionWritesRes := by
  unfold Obligations.WithResolutionWritesRes
  refine ⟨fun r => ?decodes, fun r s => ?writes, fun s => exec_eq_commandEffect _ s, ?reserved,
    fun w => answeredIllegal_of_unusedBits rfl (by decide) rfl⟩
  case decodes =>
    exact decode_of_eq_encode (by cases r <;> rfl) (RowMatches.withResolution r.code)
      ((wellFormed_withResolution _).mpr (code_ne_reserved r))
  case writes =>
    rw [exec_eq_commandEffect, commandEffect, resolutionOfCode_code]
    rfl
  case reserved => exact (answeredIllegal_iff _).mpr ⟨.reservedOperand "WITH_RESOLUTION", by decide⟩

/-- Settles O3, by its row of the map and the effect of the command. -/
theorem withGainWritesGain : Obligations.WithGainWritesGain := by
  unfold Obligations.WithGainWritesGain
  exact ⟨fun gain => decode_of_eq_encode (by revert gain; decide) (RowMatches.withGain gain) rfl,
    fun _ s => exec_eq_commandEffect _ s,
    fun w => answeredIllegal_of_unusedBits rfl (by decide) rfl⟩

/-- Settles O4, by its row of the map and the effect of the command. -/
theorem withChannelWritesChan : Obligations.WithChannelWritesChan := by
  unfold Obligations.WithChannelWritesChan
  exact ⟨fun chan => decode_of_eq_encode (by revert chan; decide) (RowMatches.withChannel chan) rfl,
    fun _ s => exec_eq_commandEffect _ s,
    fun w => answeredIllegal_of_unusedBits rfl (by decide) rfl⟩

/-- Settles O5: the effects of `SET_CHANNEL` and `WITH_CHANNEL` have the same configuration. -/
theorem setChannelWritesChan : Obligations.SetChannelWritesChan := by
  unfold Obligations.SetChannelWritesChan
  exact ⟨fun chan => decode_of_eq_encode (by revert chan; decide) (RowMatches.setChannel chan) rfl,
    fun _ s => exec_eq_commandEffect _ s,
    fun _ s => ⟨_, _, exec_eq_commandEffect _ s, exec_eq_commandEffect _ s, rfl⟩,
    fun w => answeredIllegal_of_unusedBits rfl (by decide) rfl⟩

/-- Bits 6 and 5, 3 and 2, 1 and 0 of a control byte lie in fields that the mode does not enter. -/
theorem controlConcat_getLsbD_of_ne (start mode start' mode' : BitVec 1) (chan res gain : BitVec 2) {k : Nat}
    (hk : k < 8) (hmode : k ≠ 4) (hstart : k ≠ 7) : (start ++ chan ++ mode ++ res ++ gain).getLsbD k =
      (start' ++ chan ++ mode' ++ res ++ gain).getLsbD k := by
  simp only [BitVec.getLsbD_append]
  split_ifs with hgain hres hmodeBit hchan
  · rfl
  · rfl
  · omega
  · rfl
  · omega

theorem cb_getLsbD_setMode (c : Cfg) (mode : Mode) {k : Nat} (hk : k < 8) (hmode : k ≠ 4) (hstart : k ≠ 7) :
    (cb (c.setMode mode)).getLsbD k = (cb c).getLsbD k := by
  rw [cb_eq_controlFields, cb_eq_controlFields]
  exact controlConcat_getLsbD_of_ne _ _ _ _ _ _ _ hk hmode hstart

/-- Settles O6: bits 4 and 7 by the layout of the control byte, the others by `cb_getLsbD_setMode`. -/
theorem setModeWritesMode : Obligations.SetModeWritesMode := by
  unfold Obligations.SetModeWritesMode
  refine ⟨fun mode => ?_, fun _ s => exec_eq_commandEffect _ s,
    fun mode c => ⟨?_, ?_, fun k => cb_getLsbD_setMode c mode⟩,
    fun w => answeredIllegal_of_unusedBits rfl (by decide) rfl⟩
  · exact decode_of_eq_encode (by cases mode <;> rfl) (RowMatches.setMode mode) rfl
  · rw [cb_eq_controlFields, Bool.eq_iff_iff, controlFields_mode, decide_eq_true_iff]
  · rw [cb_eq_controlFields, Bool.eq_iff_iff, controlFields_start, decide_eq_true_iff]

/-- Settles O7, by its row of the map and the effect of the command. -/
theorem getAddrAnswersAddr : Obligations.GetAddrAnswersAddr := by
  unfold Obligations.GetAddrAnswersAddr
  exact ⟨decode_of_eq_encode rfl RowMatches.getAddr rfl, exec_eq_commandEffect .getAddr,
    fun w => answeredIllegal_of_unusedBits rfl (by decide) rfl⟩

end Sys2Proof.Proofs.Configuration

/-! The encoder's commands (41_control_encoder.md): what the four lookups answer, the fields of a field image and of a
control byte, and O8 to O13, O16 and O17. -/

namespace Sys2Proof.Proofs.Encoder

open Sys2Proof.Machine Sys2Proof.Laws Sys2Proof.Safety Sys2Proof.Proofs.Encoding Sys2Proof.Proofs.Configuration

/-! ## The answers of the commands without operands -/

theorem exec_controlByte (s : State) :
    exec .controlByte s = .next { s with response := some ⟨.ok, 0#24 ++ controlFields s.cfg⟩ } :=
  exec_eq_commandEffect .controlByte s

theorem exec_settleDelay (s : State) :
    exec .settleDelay s = .next { s with response := some ⟨.ok, BitVec.ofNat 32 (settleMs s.cfg.res)⟩ } :=
  exec_eq_commandEffect .settleDelay s

theorem exec_resBits (s : State) :
    exec .resBits s = .next { s with response := some ⟨.ok, BitVec.ofNat 32 (bitsOf s.cfg.res)⟩ } :=
  exec_eq_commandEffect .resBits s

theorem exec_maxCode (s : State) :
    exec .maxCode s = .next { s with response := some ⟨.ok, BitVec.ofInt 32 (topCode s.cfg.res)⟩ } :=
  exec_eq_commandEffect .maxCode s

theorem exec_minCode (s : State) :
    exec .minCode s = .next { s with response := some ⟨.ok, BitVec.ofInt 32 (bottomCode s.cfg.res)⟩ } :=
  exec_eq_commandEffect .minCode s

/-- Settles O8: the OR of the shifted fields is `cb`, which `cb_eq_controlFields` turns into the concatenation. -/
theorem controlByteAnswersTheFields : Obligations.ControlByteAnswersTheFields := by
  unfold Obligations.ControlByteAnswersTheFields
  refine ⟨decode_of_eq_encode rfl RowMatches.controlByte rfl, exec_controlByte, fun c => ?_,
    fun w => answeredIllegal_of_unusedBits rfl (by decide) rfl⟩
  rw [← cb_eq_controlFields, cb]
  cases c.mode <;> rfl

/-- Settles O9, by the table of settle delays. -/
theorem settleDelayAnswersMilliseconds : Obligations.SettleDelayAnswersMilliseconds := by
  unfold Obligations.SettleDelayAnswersMilliseconds
  refine ⟨decode_of_eq_encode rfl RowMatches.settleDelay rfl, fun s => ?_, by decide,
    fun w => answeredIllegal_of_unusedBits rfl (by decide) rfl⟩
  rw [exec_settleDelay]
  cases s.cfg.res <;> rfl

/-- Settles O10, by the table of bit counts. -/
theorem resBitsAnswersTheBitCount : Obligations.ResBitsAnswersTheBitCount := by
  unfold Obligations.ResBitsAnswersTheBitCount
  refine ⟨decode_of_eq_encode rfl RowMatches.resBits rfl, fun s => ?_, fun r => by cases r <;> rfl,
    fun w => answeredIllegal_of_unusedBits rfl (by decide) rfl⟩
  rw [exec_resBits]
  cases s.cfg.res <;> rfl

/-- The largest code is the top of the two's-complement range of `bits` bits (R104). -/
theorem topCode_eq (r : Resolution) : topCode r = 2 ^ (bitsOf r - 1) - 1 := by cases r <;> rfl

/-- The smallest code is the bottom of that range (R105). -/
theorem bottomCode_eq (r : Resolution) : bottomCode r = -(2 ^ (bitsOf r - 1)) := by cases r <;> rfl

/-- Settles O11, by its row of the map and `topCode_eq`. -/
theorem maxCodeAnswersTheLargestCode : Obligations.MaxCodeAnswersTheLargestCode := by
  unfold Obligations.MaxCodeAnswersTheLargestCode
  exact ⟨decode_of_eq_encode rfl RowMatches.maxCode rfl, exec_maxCode, topCode_eq,
    fun w => answeredIllegal_of_unusedBits rfl (by decide) rfl⟩

/-- Settles O12, by its row of the map, `bottomCode_eq` and `topCode_eq`. -/
theorem minCodeAnswersTheSmallestCode : Obligations.MinCodeAnswersTheSmallestCode := by
  unfold Obligations.MinCodeAnswersTheSmallestCode
  refine ⟨decode_of_eq_encode rfl RowMatches.minCode rfl, exec_minCode, fun r => ⟨bottomCode_eq r, ?_⟩,
    fun w => answeredIllegal_of_unusedBits rfl (by decide) rfl⟩
  rw [bottomCode_eq, topCode_eq]
  omega

/-! ## The field image -/

theorem fieldImage_gain (b : Byte) : (fieldImage b).extractLsb' 0 2 = byteGain b :=
  BitVec.extractLsb'_append_eq_right

theorem fieldImage_res (b : Byte) : (fieldImage b).extractLsb' 4 2 = byteRes b := by
  simp only [fieldImage, BitVec.extractLsb'_append_eq_of_le, Nat.reduceLeDiff, Nat.reduceSub,
    BitVec.extractLsb'_append_eq_right]

theorem fieldImage_mode (b : Byte) : (fieldImage b).extractLsb' 8 1 = byteMode b := by
  simp only [fieldImage, BitVec.extractLsb'_append_eq_of_le, Nat.reduceLeDiff, Nat.reduceSub,
    BitVec.extractLsb'_append_eq_right]

theorem fieldImage_chan (b : Byte) : (fieldImage b).extractLsb' 12 2 = byteChan b := by
  simp only [fieldImage, BitVec.extractLsb'_append_eq_of_le, Nat.reduceLeDiff, Nat.reduceSub,
    BitVec.extractLsb'_append_eq_right]

theorem fieldImage_top (b : Byte) : (fieldImage b).extractLsb' 16 1 = byteTop b := by
  simp only [fieldImage, BitVec.extractLsb'_append_eq_of_le, Nat.reduceLeDiff, Nat.reduceSub,
    BitVec.extractLsb'_append_eq_right]

/-- Outside the five fields of R79 the image is 0. -/
theorem fieldImage_outside (b : Byte) : fieldImage b &&& ~~~0x00013133#32 = 0#32 := by
  change _ &&& (0x7FFF#15 ++ 0#1 ++ 3#2 ++ 0#2 ++ 7#3 ++ 0#1 ++ 3#2 ++ 0#2 ++ 3#2 ++ 0#2 : Word) = _
  simp only [fieldImage, BitVec.and_append, BitVec.and_zero, BitVec.zero_and]
  rfl

theorem getLsbD_eq_of_extractLsb'_eq {m n k j : Nat} {x : BitVec m} {y : BitVec n}
    (h : x.extractLsb' k 1 = y.extractLsb' j 1) : x.getLsbD k = y.getLsbD j := by
  simpa using congrArg (BitVec.getLsbD · 0) h

/-! ## `CB_FIELDS` -/

theorem exec_cbFields {b : Byte} (hres : byteRes b ≠ 3#2) (s : State) :
    exec (.cbFields b) s = .next { s with response := some ⟨.ok, fieldImage b⟩ } := by
  rw [exec_eq_commandEffect, commandEffect, if_neg hres]
  rfl

theorem exec_cbFields_reserved {b : Byte} (hres : byteRes b = 3#2) (s : State) :
    exec (.cbFields b) s = .next (illegalAnswered s) := by
  rw [exec_eq_commandEffect, commandEffect, if_pos hres]
  rfl

/-- The Encoding line of R106 is the concatenation of opcode, zero bits and operand. -/
theorem cbFieldsWord_eq_encode (b : Byte) : 0x15000000#32 ||| b.setWidth 32 = encode (.cbFields b) := by
  rw [← BitVec.setWidth_eq (encode (.cbFields b))]
  simp only [encode, opcodeOf, encodeArg, BitVec.setWidth_append_eq_shiftLeft_setWidth_or, ← BitVec.or_assoc]
  rfl

/-- The encoding of an instruction with a reserved operand value is answered `ILLEGAL` (30_encoding.md R74 case 3). -/
theorem answeredIllegal_of_eq_encode {w : Word} {i : Instr} (hword : w = encode i)
    (hrow : RowMatches.Statement i) (hwf : ¬ WellFormed i) : AnsweredIllegal w := by
  obtain ⟨row, hfind, hmask, hbuild⟩ := hrow
  rw [← opField_encode] at hfind
  rw [answeredIllegal_iff, hword, decode_row hfind, argField_encode, hbuild, if_neg (not_not.mpr hmask), if_neg hwf]
  exact ⟨_, rfl⟩

/-- Settles O13: the constraint on the resolution code decides, and the image has each field in its place. -/
theorem cbFieldsDecodesEachField : Obligations.CbFieldsDecodesEachField := by
  unfold Obligations.CbFieldsDecodesEachField
  refine ⟨fun b hres => ?decodes, fun b s hres => ⟨fieldImage b, exec_cbFields hres s, ?fields⟩,
    fun b s hres => exec_cbFields_reserved hres s, fun b hres => ?reserved,
    fun w => answeredIllegal_of_unusedBits rfl (by decide) rfl⟩
  case decodes =>
    exact decode_of_eq_encode (cbFieldsWord_eq_encode b) (RowMatches.cbFields b) ((wellFormed_cbFields b).mpr hres)
  case fields =>
    exact ⟨fieldImage_gain b, fieldImage_res b, getLsbD_eq_of_extractLsb'_eq (fieldImage_mode b),
      fieldImage_chan b, getLsbD_eq_of_extractLsb'_eq (fieldImage_top b), fieldImage_outside b⟩
  case reserved =>
    exact answeredIllegal_of_eq_encode (cbFieldsWord_eq_encode b) (RowMatches.cbFields b)
      fun hwf => (wellFormed_cbFields b).mp hwf hres

/-! ## The fields of a control byte -/

section ControlConcat

variable (start mode : BitVec 1) (chan res gain : BitVec 2)

theorem controlConcat_modeField : (start ++ chan ++ mode ++ res ++ gain).extractLsb' 4 1 = mode := by
  simp only [BitVec.extractLsb'_append_eq_of_le, Nat.reduceLeDiff, Nat.reduceSub, BitVec.extractLsb'_append_eq_right]

theorem controlConcat_startField : (start ++ chan ++ mode ++ res ++ gain).extractLsb' 7 1 = start := by
  simp only [BitVec.extractLsb'_append_eq_of_le, Nat.reduceLeDiff, Nat.reduceSub, BitVec.extractLsb'_eq_self]

end ControlConcat

theorem byteGain_cb (c : Cfg) : byteGain (cb c) = c.gain := by
  rw [cb_eq_controlFields]
  exact BitVec.extractLsb'_append_eq_right

theorem byteRes_cb (c : Cfg) : byteRes (cb c) = c.res.code := by
  rw [cb_eq_controlFields]
  exact controlConcat_res _ _ _ _ _

theorem byteMode_cb (c : Cfg) : byteMode (cb c) = c.mode.bit := by
  rw [cb_eq_controlFields]
  exact controlConcat_modeField _ _ _ _ _

theorem byteChan_cb (c : Cfg) : byteChan (cb c) = c.chan := by
  rw [cb_eq_controlFields]
  exact controlConcat_chan _ _ _ _ _

/-- The start bit is the complement of the mode bit (30_encoding.md R66). -/
theorem byteTop_cb (c : Cfg) : byteTop (cb c) = 1#1 - c.mode.bit := by
  rw [cb_eq_controlFields]
  refine (controlConcat_startField _ _ _ _ _).trans ?_
  cases c.mode <;> rfl

theorem bit_injective : Function.Injective Mode.bit := Function.LeftInverse.injective modeOfBit_bit

theorem code_injective : Function.Injective Resolution.code := fun r r' h =>
  Option.some.inj (by rw [← resolutionOfCode_code r, h, resolutionOfCode_code])

/-- Settles O16: a control byte's resolution code is never reserved, and its fields are the four selections. -/
theorem controlByteRoundTrip : Obligations.ControlByteRoundTrip := by
  unfold Obligations.ControlByteRoundTrip
  refine ⟨fun c s => ?recovers, fun c c' h => ?determines⟩
  case recovers =>
    have hlegal : byteRes (cb c) ≠ 3#2 := byteRes_cb c ▸ code_ne_reserved c.res
    exact ⟨fieldImage (cb c), exec_cbFields hlegal s,
      (fieldImage_gain _).trans (byteGain_cb c), (fieldImage_res _).trans (byteRes_cb c),
      (fieldImage_mode _).trans (byteMode_cb c), (fieldImage_chan _).trans (byteChan_cb c),
      (fieldImage_top _).trans (byteTop_cb c)⟩
  case determines =>
    have hmode : c.mode.bit = c'.mode.bit := by rw [← byteMode_cb, h, byteMode_cb]
    have hchan : c.chan = c'.chan := by rw [← byteChan_cb, h, byteChan_cb]
    have hres : c.res.code = c'.res.code := by rw [← byteRes_cb, h, byteRes_cb]
    have hgain : c.gain = c'.gain := by rw [← byteGain_cb, h, byteGain_cb]
    exact ⟨bit_injective hmode, hchan, code_injective hres, hgain⟩

/-! ## The fixed table -/

/-- The resolution code stands in bits 3-2 of `CONTROL_BYTE`'s answer. -/
theorem controlByteAnswer_res (c : Cfg) : (0#24 ++ controlFields c).extractLsb' 2 2 = c.res.code := by
  rw [BitVec.extractLsb'_append_eq_of_add_le (by decide)]
  exact controlConcat_res _ _ _ _ _

/-- Settles O17: by the resolution, the row of the table and the five answers in closed form. -/
theorem lookupsAgreeWithTheTable : Obligations.LookupsAgreeWithTheTable := by
  unfold Obligations.LookupsAgreeWithTheTable
  intro s
  refine ⟨_, exec_controlByte s, ?_⟩
  rw [controlByteAnswer_res, exec_resBits, exec_maxCode, exec_minCode, exec_settleDelay]
  cases s.cfg.res with
  | r12 => exact .inl ⟨rfl, rfl, rfl, rfl, rfl, rfl⟩
  | r14 => exact .inr (.inl ⟨rfl, rfl, rfl, rfl, rfl, rfl⟩)
  | r16 => exact .inr (.inr ⟨rfl, rfl, rfl, rfl, rfl, rfl⟩)

end Sys2Proof.Proofs.Encoder

/-! The status decoder's commands (42_status_decoder.md): the words that decode to them, what they answer, and O18, O19
and O34. -/

namespace Sys2Proof.Proofs.StatusDecoder

open Sys2Proof.Machine Sys2Proof.Laws Sys2Proof.Safety Sys2Proof.Proofs.Encoding Sys2Proof.Proofs.Configuration

/-! ## The words of the two commands -/

/-- The Encoding line of R111 is the concatenation of opcode, zero bits and operand. -/
theorem statusWord_eq_encode (b : Byte) : 0x20000000#32 ||| b.setWidth 32 = encode (.status b) := by
  rw [← BitVec.setWidth_eq (encode (.status b))]
  simp only [encode, opcodeOf, encodeArg, BitVec.setWidth_append_eq_shiftLeft_setWidth_or, ← BitVec.or_assoc]
  rfl

/-- An opcode and three bytes at the places of R112 are their concatenation. -/
theorem frameWord_eq_append (op hi lo st : Byte) :
    (op.setWidth 32 <<< 24) ||| (hi.setWidth 32 <<< 16) ||| (lo.setWidth 32 <<< 8) ||| st.setWidth 32 =
      op ++ (hi ++ lo ++ st) := by
  rw [← BitVec.setWidth_eq (op ++ (hi ++ lo ++ st))]
  simp only [BitVec.setWidth_append_eq_shiftLeft_setWidth_or, BitVec.shiftLeft_or_distrib, ← BitVec.shiftLeft_add,
    ← BitVec.or_assoc]

/-- A word with an instruction's opcode and operand field is its encoding. -/
theorem eq_encode_of_fields {w : Word} {i : Instr} (hop : opField w = opcodeOf i) (harg : argField w = encodeArg i) :
    w = encode i := by
  rw [encode, ← hop, ← harg, opField_argField]

/-- With bits 23 to 8 of the word clear, the operand field is its low byte. -/
theorem argField_of_unused_eq_zero {w : Word} (hunused : w.extractLsb' 8 16 = 0#16) :
    argField w = 0#16 ++ w.extractLsb' 0 8 := by
  have hsplit : w.extractLsb' 8 16 ++ w.extractLsb' 0 8 = w.extractLsb' 0 24 :=
    BitVec.extractLsb'_append_extractLsb'_eq_extractLsb' (by decide)
  rw [argField, ← hsplit, hunused]

theorem decode_status_of_unused_eq_zero {w : Word} (hop : w.extractLsb' 24 8 = 0x20#8)
    (hunused : w.extractLsb' 8 16 = 0#16) : decode w = .ok (.status (w.extractLsb' 0 8)) := by
  have harg := argField_of_unused_eq_zero hunused
  exact decode_of_eq_encode (eq_encode_of_fields hop harg) (RowMatches.status _) rfl

theorem decode_unpack {w : Word} (hop : w.extractLsb' 24 8 = 0x21#8) : decode w = .ok (.unpack (argField w)) :=
  decode_of_eq_encode (eq_encode_of_fields hop rfl) (RowMatches.unpack _) rfl

/-- A word that decodes is not answered `ILLEGAL` in every state (30_encoding.md R71). -/
theorem not_answeredIllegal_of_decode_ok {w : Word} {i : Instr} (h : decode w = .ok i) : ¬ AnsweredIllegal w := by
  rw [answeredIllegal_iff, h]
  rintro ⟨e, he⟩
  cases he

theorem answeredIllegal_status {w : Word} (hop : w.extractLsb' 24 8 = 0x20#8) :
    w.extractLsb' 8 16 ≠ 0#16 → AnsweredIllegal w :=
  answeredIllegal_of_unusedBits rfl (by decide) rfl hop

/-! ## What the two commands answer -/

theorem exec_status (b : Byte) (s : State) :
    exec (.status b) s = .next { s with response := some ⟨.ok, 0#23 ++ ~~~(b.extractLsb' 7 1) ++ b⟩ } :=
  exec_eq_commandEffect (.status b) s

theorem exec_unpack (f : Frame) (s : State) :
    exec (.unpack f) s = .next { s with response := some (unpackAnswer f) } := rfl

/-- The answer of `UNPACK` by the three bytes of the frame (R112). -/
theorem unpackAnswer_append (hi lo st : Byte) :
    unpackAnswer (hi ++ lo ++ st) = ⟨.ok, 0#7 ++ ~~~(st.extractLsb' 7 1) ++ st ++ (hi ++ lo)⟩ := by
  rw [unpackAnswer, frameStatus_append, frameRaw_append, readyBit_eq]

/-! ## The statements -/

/-- Settles O18, by its row of the map, the effect of the command and `ready_eq`. -/
theorem statusAnswersByteAndReady : Obligations.StatusAnswersByteAndReady := by
  unfold Obligations.StatusAnswersByteAndReady
  refine ⟨fun b => decode_of_eq_encode (statusWord_eq_encode b) (RowMatches.status b) rfl, exec_status,
    fun b => ?_, fun w => answeredIllegal_status⟩
  rw [ready_eq, Bool.not_eq_false']

/-- Settles O19: every word of the opcode is an encoding, and the answer takes the frame apart at its bytes. -/
theorem unpackSplitsTheFrame : Obligations.UnpackSplitsTheFrame := by
  unfold Obligations.UnpackSplitsTheFrame
  refine ⟨fun hi lo st => ?_, fun hi lo st s => ?_, fun w => decode_unpack⟩
  · exact decode_of_eq_encode (frameWord_eq_append 0x21#8 hi lo st) (RowMatches.unpack _) rfl
  · rw [exec_unpack, unpackAnswer_append]

/-- Settles O34: the answers name no state, and a word of the two opcodes decodes unless it sets an unused bit of
`STATUS`. -/
theorem statusCommandsArePure : Obligations.StatusCommandsArePure := by
  unfold Obligations.StatusCommandsArePure
  refine ⟨fun b => ⟨_, exec_status b⟩, fun f => ⟨_, exec_unpack f⟩, fun w hop => ⟨fun hill hunused => ?_, ?_⟩,
    fun w hop => not_answeredIllegal_of_decode_ok (decode_unpack hop)⟩
  · exact not_answeredIllegal_of_decode_ok (decode_status_of_unused_eq_zero hop hunused) hill
  · exact answeredIllegal_status hop

end Sys2Proof.Proofs.StatusDecoder

/-! The conversion protocol (43_conversion_protocol.md): what each move of the sequencer leaves, in closed form, the
order of the trace, the read-and-poll loop over any number of frames, and O46, O47, O48, O50, O52, O56 and O57. -/

namespace Sys2Proof.Proofs.Conversion

open Sys2Proof.Machine Sys2Proof.Laws Sys2Proof.Safety Sys2Proof.Proofs.Memory Sys2Proof.Proofs.Encoding

/-! ## The start of a sequence (R122, R125, R126, R135) -/

theorem controlByteAnswer_eq (c : Cfg) : controlByteAnswer c = ⟨.ok, 0#24 ++ controlFields c⟩ := by
  rw [controlByteAnswer, zext32_byte, cb_eq_controlFields]

/-- The start marker is set in one-shot mode alone (30_encoding.md R66). -/
theorem cb_start (c : Cfg) : (cb c).getLsbD 7 = true ↔ c.mode = .oneShot := by
  rw [cb_eq_controlFields, controlFields_start]

theorem requestWrite_eq (q : Sequence) (s : State) : requestWrite q s = { s with
    response := some ⟨.ok, 0#24 ++ controlFields s.cfg⟩
    seq := ⟨.requested q s.cfg.addr (cb s.cfg), some q, none, [], false⟩ } := by
  rw [← controlByteAnswer_eq]
  rfl

theorem startSequence_oneShot {s : State} (hp : s.seq.phase = .idle) (hm : s.cfg.mode = .oneShot) :
    startSequence .oneShot s = .next (requestWrite .oneShot s) := by
  simp [startSequence, hp, Sequence.allowedIn, hm]

theorem startSequence_contConfig {s : State} (hp : s.seq.phase = .idle) (hm : s.cfg.mode = .continuous) :
    startSequence .contConfig s = .next (requestWrite .contConfig s) := by
  simp [startSequence, hp, Sequence.allowedIn, hm]

theorem startSequence_readPoll {s : State} (hp : s.seq.phase = .idle) :
    startSequence .readPoll s = .next (requestRead s) := by
  simp [startSequence, hp, Sequence.allowedIn]

theorem startSequence_wrongMode {q : Sequence} {s : State} (hp : s.seq.phase = .idle)
    (hm : q.allowedIn s.cfg.mode = false) : startSequence q s = .refused .sequenceInWrongMode := by
  simp [startSequence, hp, hm]

theorem step_start {s : State} {q : Sequence} {rest : List Event} (he : s.events = .start q :: rest) :
    step s = startSequence q (s.withEvents rest) := step_cons he

/-! ## The moves of a running sequence -/

/-- A write that failed (R122, R125, R129). -/
theorem afterWrite_of_not_nextAck {s : State} (q : Sequence) (a b : Byte) (hack : s.bus.nextAck = false) :
    afterWrite q a b s = { s with
      seq := ⟨.done, s.seq.started, some .busError, s.seq.trace ++ [.write a b false], s.seq.disturbed⟩
      bus := { s.bus with
        writeStub := s.bus.writeStub.tail, writes := s.bus.writes + 1
        control := Config.failedWrite s.bus.writes s.bus.control b } } := by
  rw [afterWrite, if_neg (by simp [hack])]
  rfl

/-- An acknowledged write (R122, R123, R125). -/
theorem afterWrite_of_nextAck {s : State} (q : Sequence) (a b : Byte) (hack : s.bus.nextAck = true) :
    afterWrite q a b s = { s with
      response := some (settleDelayAnswer s.cfg)
      seq := ⟨.settling q a (settleSleep q s.cfg.res), s.seq.started, s.seq.result, s.seq.trace ++ [.write a b true],
        s.seq.disturbed⟩
      bus := { s.bus with
        writeStub := s.bus.writeStub.tail, writes := s.bus.writes + 1, control := b } } := by
  rw [afterWrite, if_pos hack]
  rfl

theorem settle_eq_settleMs (r : Resolution) : settle r = settleMs r := by cases r <;> rfl

theorem settleDelayAnswer_eq (c : Cfg) : settleDelayAnswer c = ⟨.ok, BitVec.ofNat 32 (settleMs c.res)⟩ := by
  rw [settleDelayAnswer, settle_eq_settleMs]

theorem settleSleep_oneShot (r : Resolution) : settleSleep .oneShot r = settleMs r + 2 := by
  rw [settleSleep, settle_eq_settleMs, Config.guardMargin]

theorem settleSleep_contConfig (r : Resolution) : settleSleep .contConfig r = settleMs r := by
  rw [settleSleep, settle_eq_settleMs]

/-- `SEQ_CONT_CONFIG` reads a frame through `STATUS`, the read-and-poll loop through `MEASURE` (R124 to R126). -/
def frameAnswer (q : Sequence) (r : Resolution) (f : Frame) : Response :=
  match q with
  | .contConfig => statusAnswer (frameStatus f)
  | .oneShot => measureAnswer r f
  | .readPoll => measureAnswer r f

/-- The voltage decoder answers in three ways; with each goes one result of the loop. -/
theorem volt_cases (r : Resolution) (f : Frame) :
    (volt r (frameRaw f) = ⟨.overRange, 0#32⟩ ∧ resultOf r f = .overRange) ∨
    (volt r (frameRaw f) = ⟨.underRange, 0#32⟩ ∧ resultOf r f = .underRange) ∨
    (∃ mv, volt r (frameRaw f) = ⟨.ok, mv⟩ ∧ resultOf r f = .okVoltage mv) := by
  have hvolt : volt r (frameRaw f) = ⟨.overRange, 0#32⟩ ∨ volt r (frameRaw f) = ⟨.underRange, 0#32⟩ ∨
      ∃ mv, volt r (frameRaw f) = ⟨.ok, mv⟩ := by
    unfold volt
    split
    · exact .inl rfl
    · split
      · exact .inr (.inl rfl)
      · exact .inr (.inr ⟨_, rfl⟩)
  obtain h | h | ⟨mv, h⟩ := hvolt
  · exact .inl ⟨h, by simp [resultOf, h]⟩
  · exact .inr (.inl ⟨h, by simp [resultOf, h]⟩)
  · exact .inr (.inr ⟨mv, h, by simp [resultOf, h]⟩)

theorem measureAnswer_of_ready (r : Resolution) {f : Frame} (hf : FrameReady f) :
    measureAnswer r f = volt r (frameRaw f) := if_pos hf

theorem measureAnswer_of_not_ready (r : Resolution) {f : Frame} (hf : ready (frameStatus f) = false) :
    measureAnswer r f = ⟨.notReady, 0#32⟩ := by
  simp [measureAnswer, hf]

theorem measureFrame_of_ready (q : Sequence) (a : Byte) {f : Frame} (hf : FrameReady f) (s : State) :
    measureFrame q a f s = (s.answer (measureAnswer s.cfg.res f)).finish (resultOf s.cfg.res f) := by
  rw [measureFrame, measureAnswer_of_ready _ hf]
  obtain ⟨h, hresult⟩ | ⟨h, hresult⟩ | ⟨mv, h, hresult⟩ := volt_cases s.cfg.res f <;> simp only [h, hresult]

theorem measureFrame_of_not_ready (q : Sequence) (a : Byte) {f : Frame} (hf : ready (frameStatus f) = false)
    (s : State) : measureFrame q a f s = poll q a (s.answer (measureAnswer s.cfg.res f)) := by
  rw [measureFrame, measureAnswer_of_not_ready _ hf]

/-- A ready frame ends the sequence (R125, R126). -/
theorem afterFrame_of_ready (q : Sequence) (a : Byte) {f : Frame} (hf : FrameReady f) (s : State) :
    afterFrame q a f s = (s.answer (frameAnswer q s.cfg.res f)).finish (endResult q s.cfg.res f) := by
  cases q with
  | oneShot => exact measureFrame_of_ready .oneShot a hf s
  | readPoll => exact measureFrame_of_ready .readPoll a hf s
  | contConfig => exact if_pos hf

/-- A frame that is not ready begins a poll sleep (R125, R126). -/
theorem afterFrame_of_not_ready (q : Sequence) (a : Byte) {f : Frame} (hf : ready (frameStatus f) = false)
    (s : State) : afterFrame q a f s = poll q a (s.answer (frameAnswer q s.cfg.res f)) := by
  cases q with
  | oneShot => exact measureFrame_of_not_ready .oneShot a hf s
  | readPoll => exact measureFrame_of_not_ready .readPoll a hf s
  | contConfig => exact if_neg (by simp [hf])

section AfterRead

variable {s : State} (q : Sequence) (a : Byte) {f : Frame}

theorem afterRead_of_none (hnext : s.nextFrame = none) :
    afterRead q a s = (s.takeRead.record (.read a none)).finish .busError := by
  simp only [afterRead, hnext]

theorem afterRead_of_ready (hnext : s.nextFrame = some f) (hf : FrameReady f) : afterRead q a s =
    ((s.takeRead.record (.read a (some f))).answer (frameAnswer q s.cfg.res f)).finish (endResult q s.cfg.res f) := by
  simp only [afterRead, hnext, afterFrame_of_ready q a hf, State.record_cfg, State.takeRead_cfg]

theorem afterRead_of_not_ready (hnext : s.nextFrame = some f) (hf : ready (frameStatus f) = false) :
    afterRead q a s = poll q a ((s.takeRead.record (.read a (some f))).answer (frameAnswer q s.cfg.res f)) := by
  simp only [afterRead, hnext, afterFrame_of_not_ready q a hf, State.record_cfg, State.takeRead_cfg]

end AfterRead

/-- A read of any outcome is recorded with its frame, or without one (R136). -/
theorem afterRead_trace (q : Sequence) (a : Byte) (s : State) :
    (afterRead q a s).seq.trace = s.seq.trace ++ [.read a s.nextFrame] := by
  cases hnext : s.nextFrame with
  | none => rw [afterRead_of_none q a hnext]; rfl
  | some f =>
    cases hf : ready (frameStatus f) with
    | true => rw [afterRead_of_ready q a hnext hf]; rfl
    | false => rw [afterRead_of_not_ready q a hnext hf]; rfl

theorem afterSleep_trace (q : Sequence) (a : Byte) (ms : Nat) (s : State) :
    (afterSleep q a ms s).seq.trace = s.seq.trace ++ [.sleep ms] := rfl

theorem move_reading {s : State} {q : Sequence} {a : Byte} (hp : s.seq.phase = .reading q a) :
    move s = afterRead q a s := by
  simp only [move, hp]

theorem move_sleeping {s : State} {q : Sequence} {a : Byte} {ms : Nat}
    (hp : s.seq.phase = .settling q a ms ∨ s.seq.phase = .polling q a ms) : move s = afterSleep q a ms s := by
  obtain hp | hp := hp <;> simp only [move, hp]

/-! ## The steps of a running sequence, with no request pending -/

section Step

variable {s : State} {q : Sequence} {a : Byte}

theorem step_undisturbed (he : s.events = []) (hd : s.seq.disturbed = false) : step s = .next (move s) := by
  rw [step_nil he, advance_undisturbed hd]

theorem step_requested {b : Byte} (he : s.events = []) (hp : s.seq.phase = .requested q a b)
    (hd : s.seq.disturbed = false) : step s = .next (afterWrite q a b s) := by
  rw [step_undisturbed he hd, move_requested hp]

theorem step_reading (he : s.events = []) (hp : s.seq.phase = .reading q a) (hd : s.seq.disturbed = false) :
    step s = .next (afterRead q a s) := by
  rw [step_undisturbed he hd, move_reading hp]

theorem step_sleeping {ms : Nat} (he : s.events = [])
    (hp : s.seq.phase = .settling q a ms ∨ s.seq.phase = .polling q a ms) (hd : s.seq.disturbed = false) :
    step s = .next { s with
      seq := ⟨.reading q a, s.seq.started, s.seq.result, s.seq.trace ++ [.sleep ms], false⟩ } := by
  rw [step_undisturbed he hd, move_sleeping hp, ← hd]
  rfl

theorem step_poll (he : s.events = []) (hd : s.seq.disturbed = false) :
    step (poll q a s) = .next (afterSleep q a Config.pollInterval (poll q a s)) := by
  rw [step_undisturbed (s := poll q a s) he hd, move_sleeping (.inr rfl)]

end Step

/-! ## The order of the trace (R132) -/

/-- The order does not depend on whether the sequence was disturbed. -/
theorem inOrder_congr {p q : Sequencer} (hphase : p.phase = q.phase) (hstarted : p.started = q.started)
    (hresult : p.result = q.result) (htrace : p.trace = q.trace) : InOrder p ↔ InOrder q := by
  simp only [InOrder, Ended, hphase, hstarted, hresult, htrace]

theorem opening_eq {k : Sequence} (hk : k ≠ .readPoll) (a b : Byte) (r : Resolution) :
    opening k a b r = [.write a b true, .sleep (settleSleep k r)] := by
  cases k with
  | readPoll => exact absurd rfl hk
  | _ => rfl

theorem polls_concat (a : Byte) (fs : List Frame) (f : Frame) :
    polls a (fs ++ [f]) = polls a fs ++ [.read a (some f)] ++ [.sleep Config.pollInterval] := by
  simp [polls]

theorem allNotReady_concat {fs : List Frame} {f : Frame} (hfs : AllNotReady fs)
    (hf : ready (frameStatus f) = false) : AllNotReady (fs ++ [f]) := by
  simpa [AllNotReady, or_imp, forall_and, hf] using hfs

section InOrder

variable {s : State} {k : Sequence} {a b : Byte} {ms : Nat}

theorem inOrder_requestWrite (hk : k ≠ .readPoll) (s : State) : InOrder (requestWrite k s).seq :=
  ⟨rfl, hk, rfl, rfl⟩

theorem inOrder_requestRead (s : State) : InOrder (requestRead s).seq :=
  ⟨rfl, rfl, 0#8, .r12, [], by simp [AllNotReady], rfl⟩

theorem inOrder_afterWrite (hp : s.seq.phase = .requested k a b) (h : InOrder s.seq) :
    InOrder (afterWrite k a b s).seq := by
  simp only [InOrder, hp] at h
  obtain ⟨hstarted, hk, htrace, hresult⟩ := h
  cases hack : s.bus.nextAck with
  | true =>
    rw [afterWrite_of_nextAck k a b hack, htrace]
    exact ⟨hstarted, hk, hresult, b, s.cfg.res, rfl, rfl⟩
  | false =>
    rw [afterWrite_of_not_nextAck k a b hack, htrace]
    exact ⟨k, hstarted, .inl ⟨hk, a, b, rfl, rfl⟩⟩

/-- The settle sleep completes what precedes the first read. -/
theorem inOrder_afterSleep_settling (hp : s.seq.phase = .settling k a ms) (h : InOrder s.seq) :
    InOrder (afterSleep k a ms s).seq := by
  simp only [InOrder, hp] at h
  obtain ⟨hstarted, hk, hresult, byte, r, rfl, htrace⟩ := h
  refine ⟨hstarted, hresult, byte, r, [], by simp [AllNotReady], ?_⟩
  rw [afterSleep_trace, htrace, opening_eq hk]
  rfl

/-- A poll sleep completes one more poll. -/
theorem inOrder_afterSleep_polling (hp : s.seq.phase = .polling k a ms) (h : InOrder s.seq) :
    InOrder (afterSleep k a ms s).seq := by
  simp only [InOrder, hp] at h
  obtain ⟨hstarted, hresult, rfl, byte, r, fs, f, hfs, hf, htrace⟩ := h
  refine ⟨hstarted, hresult, byte, r, fs ++ [f], allNotReady_concat hfs hf, ?_⟩
  rw [afterSleep_trace, htrace, polls_concat]
  simp only [List.append_assoc]

/-- A read ends the sequence, without a frame or with a ready one, or it is followed by a poll sleep. -/
theorem inOrder_afterRead (hp : s.seq.phase = .reading k a) (h : InOrder s.seq) :
    InOrder (afterRead k a s).seq := by
  simp only [InOrder, hp] at h
  obtain ⟨hstarted, hresult, byte, r, fs, hfs, htrace⟩ := h
  have htrace' := afterRead_trace k a s
  rw [htrace] at htrace'
  cases hnext : s.nextFrame with
  | none =>
    rw [hnext] at htrace'
    rw [afterRead_of_none k a hnext] at htrace' ⊢
    exact ⟨k, hstarted, .inr (.inl ⟨a, byte, r, fs, hfs, htrace', rfl⟩)⟩
  | some f =>
    rw [hnext] at htrace'
    cases hf : ready (frameStatus f) with
    | true =>
      rw [afterRead_of_ready k a hnext hf] at htrace' ⊢
      exact ⟨k, hstarted, .inr (.inr ⟨a, byte, r, fs, f, hfs, hf, htrace', s.cfg.res, rfl⟩)⟩
    | false =>
      rw [afterRead_of_not_ready k a hnext hf] at htrace' ⊢
      exact ⟨hstarted, hresult, rfl, byte, r, fs, f, hfs, hf, htrace'⟩

theorem inOrder_move (h : InOrder s.seq) : InOrder (move s).seq := by
  cases hp : s.seq.phase with
  | idle => simpa only [move, hp] using h
  | requested k a b => rw [move_requested hp]; exact inOrder_afterWrite hp h
  | settling k a ms => rw [move_sleeping (.inl hp)]; exact inOrder_afterSleep_settling hp h
  | reading k a => rw [move_reading hp]; exact inOrder_afterRead hp h
  | polling k a ms => rw [move_sleeping (.inr hp)]; exact inOrder_afterSleep_polling hp h
  | done => simpa only [move, hp] using h

/-- Taking the result keeps the trace and the result of the sequence that has ended (notes/assumptions/9.md). -/
theorem inOrder_setPhase_idle (hp : s.seq.phase = .done) (h : InOrder s.seq) :
    InOrder (s.setPhase .idle).seq := by
  simp only [InOrder, hp] at h
  exact .inr h

theorem inOrder_deliver {w : Word} {t : State} (hd : deliver w s = .next t) (h : InOrder s.seq) : InOrder t.seq := by
  obtain ⟨u, hu, -, -, hphase, hstarted, hresult, htrace⟩ := deliver_frame w s
  obtain rfl : u = t := by simpa [hu] using hd
  exact (inOrder_congr hphase hstarted hresult htrace).mpr h

end InOrder

/-- Settles O52: of what a step can do, a command and the taking of a result keep the trace, a start and a reset empty
it, and a move of the sequencer extends it as its phase says (`inOrder_move`). -/
theorem everyStepKeepsTheTraceInOrder : Obligations.EveryStepKeepsTheTraceInOrder := by
  unfold Obligations.EveryStepKeepsTheTraceInOrder
  intro s t h hstep
  obtain ⟨w, rest, -, hd⟩ | ⟨q, rest, -, -, ⟨rfl, hq⟩ | ⟨rfl, -⟩⟩ | ⟨es, rfl⟩ | ⟨rest, -, hp, rfl⟩ |
    ⟨a, m, rest, -, rfl⟩ := step_cases hstep
  · exact inOrder_deliver (s := s.withEvents rest) hd h
  · exact inOrder_requestWrite hq _
  · exact inOrder_requestRead _
  · exact inOrder_move (s := s.withEvents es) h
  · exact inOrder_setPhase_idle (s := s.withEvents rest) hp h
  · exact .inl ⟨rfl, rfl, rfl⟩

/-! ## The read-and-poll loop over any number of frames -/

theorem run_succ {M : Host.Core} {n : Nat} {s t : M.State} (h : M.step s = .next t) : M.run (n + 1) s = M.run n t := by
  rw [Host.Core.run, h]

theorem runFor_succ {n : Nat} {s t : State} (h : step s = .next t) : runFor (n + 1) s = runFor n t :=
  run_succ (M := core) h

/-- The sequencer reads again, with no request pending, after `n` reads of the loop that was reading in `s`: registers
and result are as they were, and the bus gives it the answers that follow the first `n`. -/
structure ReadsAgain (n : Nat) (q : Sequence) (a : Byte) (s t : State) : Prop where
  events : t.events = []
  phase : t.seq.phase = .reading q a
  undisturbed : t.seq.disturbed = false
  result : t.seq.result = s.seq.result
  cfg : t.cfg = s.cfg
  reads : t.bus.reads = s.bus.reads + n
  answers : ∀ k, t.bus.answerAt k = s.bus.answerAt (n + k)

section Loop

variable {s t : State} {q : Sequence} {a : Byte}

theorem readsAgain_zero (he : s.events = []) (hp : s.seq.phase = .reading q a) (hd : s.seq.disturbed = false) :
    ReadsAgain 0 q a s s :=
  ⟨he, hp, hd, rfl, rfl, rfl, fun k => by rw [Nat.zero_add]⟩

/-- One poll of the loop: the read of a frame that was not ready, and the sleep after it. -/
def afterPoll (q : Sequence) (a : Byte) (f : Frame) (s : State) : State :=
  afterSleep q a Config.pollInterval
    (poll q a ((s.takeRead.record (.read a (some f))).answer (frameAnswer q s.cfg.res f)))

theorem afterPoll_bus (q : Sequence) (a : Byte) (f : Frame) (s : State) :
    (afterPoll q a f s).bus = s.takeRead.bus := rfl

/-- A frame that is not ready costs two steps, the read and the sleep. -/
theorem runFor_afterPoll {f : Frame} (he : s.events = []) (hp : s.seq.phase = .reading q a)
    (hd : s.seq.disturbed = false) (hnext : s.nextFrame = some f) (hf : ready (frameStatus f) = false) (m : Nat) :
    runFor (m + 2) s = runFor m (afterPoll q a f s) := by
  have hread := step_reading he hp hd
  rw [afterRead_of_not_ready q a hnext hf] at hread
  rw [runFor_succ hread]
  exact runFor_succ (step_poll he hd)

/-- The loop reads again after one poll more. -/
theorem readsAgain_afterPoll {n : Nat} (f : Frame) (h : ReadsAgain n q a s t) :
    ReadsAgain (n + 1) q a s (afterPoll q a f t) where
  events := h.events
  phase := rfl
  undisturbed := h.undisturbed
  result := h.result
  cfg := h.cfg
  reads := by rw [afterPoll_bus, State.takeRead_bus_reads, h.reads, Nat.add_assoc]
  answers k := by rw [afterPoll_bus, takeRead_answerAt, h.answers, Nat.add_assoc, Nat.add_comm k]

/-- As long as the frames are not ready the loop goes on (R127). -/
theorem exists_readsAgain {n : Nat} (he : s.events = []) (hp : s.seq.phase = .reading q a)
    (hd : s.seq.disturbed = false)
    (hbusy : ∀ k < n, ∃ f, frameOf (s.bus.answerAt k) = some f ∧ ready (frameStatus f) = false) :
    ∃ t, ReadsAgain n q a s t ∧ ∀ m, runFor (2 * n + m) s = runFor m t := by
  induction n with
  | zero => exact ⟨s, readsAgain_zero he hp hd, fun m => by rw [Nat.mul_zero, Nat.zero_add]⟩
  | succ n ih =>
    obtain ⟨t, ht, hrun⟩ := ih fun k hk => hbusy k (by omega)
    obtain ⟨f, hnext, hf⟩ := hbusy n (by omega)
    have hnext' : t.nextFrame = some f := by rw [State.nextFrame, ht.answers, Nat.add_zero, hnext]
    refine ⟨afterPoll q a f t, readsAgain_afterPoll f ht, fun m => ?_⟩
    have hsteps : 2 * (n + 1) + m = 2 * n + (m + 2) := by omega
    rw [hsteps, hrun, runFor_afterPoll ht.events ht.phase ht.undisturbed hnext' hf]

/-- What a sequence ends with when its last read gave this frame, or none (R126, R129). -/
def readResult (q : Sequence) (r : Resolution) : Option Frame → SeqResult
  | none => .busError
  | some f => endResult q r f

/-- A read that fails or delivers a ready frame ends the sequence. -/
theorem afterRead_of_ends (q : Sequence) (a : Byte) (hends : Ends s.bus 0) :
    (afterRead q a s).seq.phase = .done ∧
      (afterRead q a s).seq.result = some (readResult q s.cfg.res s.nextFrame) := by
  cases hnext : s.nextFrame with
  | none =>
    rw [afterRead_of_none q a hnext]
    exact ⟨rfl, rfl⟩
  | some f =>
    rw [afterRead_of_ready q a hnext (hends f hnext)]
    exact ⟨rfl, rfl⟩

theorem not_ends_iff (b : Bus) (k : Nat) :
    ¬ Ends b k ↔ ∃ f, frameOf (b.answerAt k) = some f ∧ ready (frameStatus f) = false := by
  simp [Ends]

end Loop

/-- Settles O56: the loop reads again after any number of frames that are not ready (`exists_readsAgain`). -/
theorem pollLoopHasNoBound : Obligations.PollLoopHasNoBound := by
  unfold Obligations.PollLoopHasNoBound
  intro n s q a he hp hd hbusy
  obtain ⟨t, ht, hrun⟩ := exists_readsAgain he hp hd hbusy
  exact ⟨t, hrun 0, ht.phase, ht.result, ht.cfg⟩

/-- Settles O57: the answers before the least ending one are frames that are not ready, so the loop reads them all and
then meets that one. -/
theorem pollLoopEndsWhenEventuallyReady : Obligations.PollLoopEndsWhenEventuallyReady := by
  unfold Obligations.PollLoopEndsWhenEventuallyReady
  intro s q a he hp hd hready
  classical
  obtain ⟨k, hends, hleast⟩ : ∃ k, Ends s.bus k ∧ ∀ j < k, ¬ Ends s.bus j :=
    ⟨Nat.find hready, Nat.find_spec hready, fun j => Nat.find_min hready⟩
  obtain ⟨t, ht, hrun⟩ := exists_readsAgain he hp hd fun j hj => (not_ends_iff s.bus j).mp (hleast j hj)
  have hanswer : t.bus.answerAt 0 = s.bus.answerAt k := ht.answers 0
  have hends' : Ends t.bus 0 := by rwa [Ends, hanswer]
  obtain ⟨hphase, hresult⟩ := afterRead_of_ends q a hends'
  refine ⟨k, 2 * k + 1, afterRead q a t, hends, hleast, ?_, hphase, ?_, ?_, ?_⟩
  · rw [hrun 1, runFor_succ (step_reading ht.events ht.phase ht.undisturbed)]
    rfl
  · rw [afterRead_cfg, ht.cfg]
  · rw [afterRead_bus, State.takeRead_bus_reads, ht.reads]
  · rw [hresult, State.nextFrame, hanswer, ht.cfg]
    cases frameOf (s.bus.answerAt k) <;> rfl

/-! ## The three sequences, move by move -/

/-- Settles O46, by the start, the two outcomes of the write and the end of the sleep. -/
theorem oneShotRequestsAndSettles : Obligations.OneShotRequestsAndSettles := by
  unfold Obligations.OneShotRequestsAndSettles
  refine ⟨fun s rest he hp hm => ⟨(cb_start s.cfg).mpr hm, ?_⟩, fun s a b he hp hd => ⟨fun hack => ?_, fun hack => ?_⟩,
    fun s a ms he hp hd => step_sleeping he (.inl hp) hd⟩
  · rw [step_start he, startSequence_oneShot (s := s.withEvents rest) hp hm, requestWrite_eq]
    rfl
  · rw [step_requested he hp hd, afterWrite_of_not_nextAck _ a b hack, hd]
  · rw [step_requested he hp hd, afterWrite_of_nextAck _ a b hack, hd, settleDelayAnswer_eq, settleSleep_oneShot]

/-- The ready gate reads the top bit of the frame's low byte (30_encoding.md R67, R68). -/
theorem ready_frameStatus (f : Frame) : ready (frameStatus f) = !f.getLsbD 7 := by
  rw [ready_eq, frameStatus, BitVec.getLsbD_extractLsb']
  rfl

/-- Settles O47, by the start, the two outcomes of the write, the end of a sleep and the three outcomes of a read. -/
theorem continuousConfigurationWrite : Obligations.ContinuousConfigurationWrite := by
  unfold Obligations.ContinuousConfigurationWrite
  refine ⟨fun s rest he hp hm => ⟨?_, ?_⟩, fun s a b he hp hd => ⟨fun hack => ?_, fun hack => ?_⟩,
    fun s a ms he hp hd => step_sleeping he hp hd,
    fun s a he hp hd => ⟨_, step_reading he hp hd, afterRead_cfg _ a s, afterRead_trace _ a s, ?_⟩⟩
  · rw [← Bool.not_eq_true, cb_start, hm]
    decide
  · rw [step_start he, startSequence_contConfig (s := s.withEvents rest) hp hm, requestWrite_eq]
    rfl
  · rw [step_requested he hp hd, afterWrite_of_not_nextAck _ a b hack, hd]
  · rw [step_requested he hp hd, afterWrite_of_nextAck _ a b hack, hd, settleDelayAnswer_eq, settleSleep_contConfig]
  · cases hnext : s.nextFrame with
    | none =>
      rw [afterRead_of_none _ a hnext]
      exact ⟨rfl, rfl⟩
    | some f =>
      cases htop : f.getLsbD 7 with
      | true =>
        rw [afterRead_of_not_ready _ a hnext (by rw [ready_frameStatus, htop]; rfl)]
        simp only [htop, if_true]
        exact ⟨rfl, rfl⟩
      | false =>
        rw [afterRead_of_ready _ a hnext (by rw [FrameReady, ready_frameStatus, htop]; rfl)]
        simp only [htop]
        exact ⟨rfl, rfl⟩

theorem endResult_of_ne_contConfig {q : Sequence} (hq : q ≠ .contConfig) (r : Resolution) (f : Frame) :
    endResult q r f = resultOf r f := by
  cases q with
  | contConfig => exact absurd rfl hq
  | _ => rfl

theorem frameAnswer_of_ne_contConfig {q : Sequence} (hq : q ≠ .contConfig) (r : Resolution) (f : Frame) :
    frameAnswer q r f = measureAnswer r f := by
  cases q with
  | contConfig => exact absurd rfl hq
  | _ => rfl

/-- Settles O48: a read fails, delivers a frame that is not ready, or a ready one, for which the voltage decoder answers
in three ways (`volt_cases`). -/
theorem readAndPollLoop : Obligations.ReadAndPollLoop := by
  unfold Obligations.ReadAndPollLoop
  refine ⟨fun s rest he hp => ⟨requestRead (s.withEvents rest), ?_, rfl, rfl, rfl, rfl⟩,
    fun s q a he hq hp hd => ⟨_, step_reading he hp hd, afterRead_cfg q a s, afterRead_trace q a s, ?_⟩,
    fun s q a ms he _ hp hd => step_sleeping he (.inr hp) hd⟩
  · rw [step_start he, startSequence_readPoll (s := s.withEvents rest) hp]
  · cases hnext : s.nextFrame with
    | none =>
      rw [afterRead_of_none q a hnext]
      exact ⟨rfl, rfl⟩
    | some f =>
      simp only [← measureAnswer_eq_exactMeasure]
      cases hf : ready (frameStatus f) with
      | false =>
        rw [afterRead_of_not_ready q a hnext hf, frameAnswer_of_ne_contConfig hq, measureAnswer_of_not_ready _ hf]
        exact ⟨rfl, rfl, rfl⟩
      | true =>
        rw [afterRead_of_ready q a hnext hf, frameAnswer_of_ne_contConfig hq, endResult_of_ne_contConfig hq,
          measureAnswer_of_ready _ hf]
        obtain ⟨hvolt, hresult⟩ | ⟨hvolt, hresult⟩ | ⟨mv, hvolt, hresult⟩ := volt_cases s.cfg.res f <;>
          (rw [hvolt, hresult]; exact ⟨rfl, rfl, rfl⟩)

/-- Settles O50, by the mode in which each sequence is allowed (R135). -/
theorem sequencesNeedTheirMode : Obligations.SequencesNeedTheirMode := by
  unfold Obligations.SequencesNeedTheirMode
  refine ⟨fun s rest he hp hm => ?_, fun s rest he hp hm => ?_, fun s rest he hp => ⟨requestRead (s.withEvents rest), ?_⟩⟩
  · rw [step_start he, startSequence_wrongMode (s := s.withEvents rest) hp (by rw [State.withEvents_cfg, hm]; rfl)]
  · rw [step_start he, startSequence_wrongMode (s := s.withEvents rest) hp (by rw [State.withEvents_cfg, hm]; rfl)]
  · rw [step_start he, startSequence_readPoll (s := s.withEvents rest) hp]

end Sys2Proof.Proofs.Conversion

/-! The voltage decoder's commands (44_voltage_decoder.md): the words that decode to them, what they answer over the
integers, and O20 and O21. -/

namespace Sys2Proof.Proofs.VoltageDecoder

open Sys2Proof.Machine Sys2Proof.Laws Sys2Proof.Safety Sys2Proof.Proofs.Encoding Sys2Proof.Proofs.Configuration
  Sys2Proof.Proofs.StatusDecoder

/-! ## The words of the two commands -/

/-- The Encoding line of R141 is the concatenation of opcode, zero bits and operand. -/
theorem calcVoltageWord_eq_encode (raw : Sample) : 0x30000000#32 ||| raw.setWidth 32 = encode (.calcVoltage raw) := by
  rw [← BitVec.setWidth_eq (encode (.calcVoltage raw))]
  simp only [encode, opcodeOf, encodeArg, BitVec.setWidth_append_eq_shiftLeft_setWidth_or, ← BitVec.or_assoc]
  rfl

theorem decode_measure {w : Word} (hop : w.extractLsb' 24 8 = 0x31#8) : decode w = .ok (.measure (argField w)) :=
  decode_of_eq_encode (eq_encode_of_fields hop rfl) (RowMatches.measure _) rfl

/-! ## What the two commands answer -/

theorem exec_calcVoltage (raw : Sample) (s : State) :
    exec (.calcVoltage raw) s = .next { s with response := some (exactVoltage s.cfg.res raw) } :=
  exec_eq_commandEffect (.calcVoltage raw) s

theorem exec_measure (f : Frame) (s : State) :
    exec (.measure f) s = .next { s with response := some (measureAnswer s.cfg.res f) } := rfl

/-- The answer of `MEASURE` by the three bytes of the frame (R142): the gate reads the status byte, and the sample is
the other two. -/
theorem measureAnswer_append (r : Resolution) (hi lo st : Byte) :
    measureAnswer r (hi ++ lo ++ st) = exactMeasure r hi lo st := by
  rw [measureAnswer, exactMeasure, frameStatus_append, frameRaw_append, ready_eq, volt_eq_exactVoltage]
  cases st.getLsbD 7 with
  | false => rfl
  | true => rfl

/-! ## The statements -/

/-- Settles O20: the 32-bit product does not overflow (`volt_eq_exactVoltage`), so the answer is the one over the
integers. -/
theorem calcVoltageConvertsExactly : Obligations.CalcVoltageConvertsExactly := by
  unfold Obligations.CalcVoltageConvertsExactly
  refine ⟨fun raw => ?_, exec_calcVoltage, fun w => answeredIllegal_of_unusedBits rfl (by decide) rfl⟩
  exact decode_of_eq_encode (calcVoltageWord_eq_encode raw) (RowMatches.calcVoltage raw) rfl

/-- Settles O21: every word of the opcode is an encoding, and the ready gate decides before the conversion. -/
theorem measureGatesThenConverts : Obligations.MeasureGatesThenConverts := by
  unfold Obligations.MeasureGatesThenConverts
  refine ⟨fun hi lo st => ?_, fun hi lo st s => ?_, fun w => decode_measure⟩
  · exact decode_of_eq_encode (frameWord_eq_append 0x31#8 hi lo st) (RowMatches.measure _) rfl
  · rw [exec_measure, measureAnswer_append]

end Sys2Proof.Proofs.VoltageDecoder

/-! Reset and power-on (70_reset_and_hazards.md R170, R171): the step that serves a reset, the command it acts like, and
O45. -/

namespace Sys2Proof.Proofs.Reset

open Sys2Proof.Machine Sys2Proof.Laws Sys2Proof.Safety Sys2Proof.Proofs.Encoding

theorem step_reset {s : State} {addr : Byte} {mode : Mode} {rest : List Event}
    (he : s.events = .reset addr mode :: rest) : step s = .next ((s.withEvents rest).resetBlock addr mode) :=
  step_cons he

theorem exec_create (addr : Byte) (mode : Mode) (s : State) : exec (.create addr mode) s =
    .next { s with cfg := .default addr mode, response := some (building (.default addr mode)).2 } :=
  exec_eq_commandEffect (.create addr mode) s

/-- Settles O45: reset and `CREATE` both write `Cfg.default`, which is also the configuration at power-on, and the
device's register at power-on is `powerOnControl`. -/
theorem resetIsCreate : Obligations.ResetIsCreate := by
  unfold Obligations.ResetIsCreate
  refine ⟨fun s addr mode rest he => ?reset, fun addr mode deviceMode start => ?powerOn⟩
  case reset =>
    exact ⟨_, _, step_reset he, exec_create addr mode s, State.resetBlock_cfg addr mode _,
      State.resetBlock_cfg addr mode _, State.resetBlock_response addr mode _,
      congrArg Sequencer.phase (State.resetBlock_seq addr mode _), State.resetBlock_bus addr mode _,
      State.resetBlock_events addr mode _⟩
  case powerOn => exact ⟨rfl, rfl, rfl, rfl⟩

end Sys2Proof.Proofs.Reset

/-! The encoding as a whole (30_encoding.md sections 5 and 6, 41_control_encoder.md section 2): decoder and encoder
undo each other, the bytes that are control bytes, and O39, O40, O15 and O41. -/

namespace Sys2Proof.Proofs.RoundTrip

open Sys2Proof.Machine Sys2Proof.Laws Sys2Proof.Safety Sys2Proof.Proofs.Encoding Sys2Proof.Proofs.Configuration
  Sys2Proof.Proofs.Encoder Sys2Proof.Proofs.StatusDecoder

/-! ## Decoding an encoded instruction -/

/-- The encoding of every instruction is a word of its row. -/
theorem rowMatches (i : Instr) : RowMatches.Statement i := by
  cases i with
  | create addr mode => exact RowMatches.create addr mode
  | withResolution res => exact RowMatches.withResolution res
  | withGain gain => exact RowMatches.withGain gain
  | withChannel chan => exact RowMatches.withChannel chan
  | setChannel chan => exact RowMatches.setChannel chan
  | setMode mode => exact RowMatches.setMode mode
  | getAddr => exact RowMatches.getAddr
  | controlByte => exact RowMatches.controlByte
  | settleDelay => exact RowMatches.settleDelay
  | resBits => exact RowMatches.resBits
  | maxCode => exact RowMatches.maxCode
  | minCode => exact RowMatches.minCode
  | cbFields byte => exact RowMatches.cbFields byte
  | status byte => exact RowMatches.status byte
  | unpack frame => exact RowMatches.unpack frame
  | calcVoltage raw => exact RowMatches.calcVoltage raw
  | measure frame => exact RowMatches.measure frame

theorem decode_encode {i : Instr} (hwf : WellFormed i) : decode (encode i) = .ok i :=
  decode_of_eq_encode rfl (rowMatches i) hwf

/-- Settles O39: an encoding is a word of its instruction's row (`rowMatches`). -/
theorem decodeOfEncode : Obligations.DecodeOfEncode := by
  unfold Obligations.DecodeOfEncode
  exact fun i => decode_encode

/-! ## Encoding a decoded word -/

/-- Reading the operands of an operand field without unused bits and encoding them again gives the row's opcode and the
field. -/
def RowReencodes (row : Row) : Prop :=
  ∀ a : BitVec 24, a &&& argField row.mask = 0#24 →
    opcodeOf (row.build a) = row.op ∧ encodeArg (row.build a) = a

theorem createArg_append {a : BitVec 24} (h : a &&& 0xFFFE00#24 = 0#24) :
    0#15 ++ (argCreateMode a).bit ++ argAddr a = a := by
  have hlow : a.extractLsb' 8 1 ++ a.extractLsb' 0 8 = a.extractLsb' 0 9 :=
    BitVec.extractLsb'_append_extractLsb'_eq_extractLsb' rfl
  rw [argCreateMode, bit_modeOfBit, argAddr]
  refine BitVec.append_assoc.trans ?_
  rw [hlow]
  exact (eq_append_of_masked (m := 15) (n := 9) h).symm

theorem setModeArg_append {a : BitVec 24} (h : a &&& 0xFFFFFE#24 = 0#24) : 0#23 ++ (argMode a).bit = a := by
  rw [argMode, bit_modeOfBit]
  exact (eq_append_of_masked (m := 23) (n := 1) h).symm

theorem codeArg_append {a : BitVec 24} (h : a &&& 0xFFFFFC#24 = 0#24) : 0#22 ++ argCode a = a :=
  (eq_code_of_masked h).symm

theorem byteArg_append {a : BitVec 24} (h : a &&& 0xFFFF00#24 = 0#24) : 0#16 ++ argByte a = a :=
  (eq_append_of_masked (m := 16) (n := 8) h).symm

theorem rawArg_append {a : BitVec 24} (h : a &&& 0xFF0000#24 = 0#24) : 0#8 ++ argRaw a = a :=
  (eq_append_of_masked (m := 8) (n := 16) h).symm

/-- A command without operands leaves the whole field unused. -/
theorem emptyArg_eq {a : BitVec 24} (h : a &&& 0xFFFFFF#24 = 0#24) : 0#24 = a := by
  rw [← h, and_allArg]

theorem rowReencodes_configuration : ∀ row ∈ configurationRows, RowReencodes row := by
  simp only [configurationRows, List.forall_mem_cons]
  refine ⟨?create, ?withResolution, ?withGain, ?withChannel, ?setChannel, ?setMode, ?getAddr, List.forall_mem_nil _⟩
  all_goals intro a h
  case create => exact ⟨rfl, createArg_append h⟩
  case setMode => exact ⟨rfl, setModeArg_append h⟩
  case getAddr => exact ⟨rfl, emptyArg_eq h⟩
  all_goals exact ⟨rfl, codeArg_append h⟩

theorem rowReencodes_encoder : ∀ row ∈ encoderRows, RowReencodes row := by
  simp only [encoderRows, List.forall_mem_cons]
  refine ⟨?controlByte, ?settleDelay, ?resBits, ?maxCode, ?minCode, ?cbFields, List.forall_mem_nil _⟩
  all_goals intro a h
  case cbFields => exact ⟨rfl, byteArg_append h⟩
  all_goals exact ⟨rfl, emptyArg_eq h⟩

theorem rowReencodes_decoder : ∀ row ∈ decoderRows, RowReencodes row := by
  simp only [decoderRows, List.forall_mem_cons]
  refine ⟨?status, ?unpack, ?calcVoltage, ?measure, List.forall_mem_nil _⟩
  all_goals intro a h
  case status => exact ⟨rfl, byteArg_append h⟩
  case calcVoltage => exact ⟨rfl, rawArg_append h⟩
  all_goals exact ⟨rfl, rfl⟩

theorem rowReencodes {row : Row} (hmem : row ∈ opcodeMap) : RowReencodes row := by
  rw [opcodeMap, List.mem_append, List.mem_append] at hmem
  obtain (h | h) | h := hmem
  · exact rowReencodes_configuration row h
  · exact rowReencodes_encoder row h
  · exact rowReencodes_decoder row h

/-- A word that decodes matches its row, so its opcode and its operand field are those of the encoding. -/
theorem encode_of_decode {w : Word} {i : Instr} (h : decode w = .ok i) : encode i = w := by
  obtain ⟨row, hfind, hmask, rfl, -⟩ := decode_ok h
  obtain ⟨hmem, -⟩ := findRow_some hfind
  obtain ⟨hop, hunused⟩ := (matches_row_iff hmem w).mp hmask
  obtain ⟨hop', harg⟩ := rowReencodes hmem (argField w) hunused
  exact (eq_encode_of_fields (hop.trans hop'.symm) harg.symm).symm

/-- Settles O40, by the row that decoded the word. -/
theorem encodeOfDecode : Obligations.EncodeOfDecode := by
  unfold Obligations.EncodeOfDecode
  exact fun w i h => ⟨encode_of_decode h, decode_wellFormed h⟩

/-- Settles O41: the six words are encodings. -/
theorem sampleWordsDecode : Obligations.SampleWordsDecode := by
  unfold Obligations.SampleWordsDecode
  exact ⟨decode_encode (i := .create 0x68#8 .continuous) rfl, decode_encode (i := .withResolution 2#2) rfl,
    decode_encode (i := .cbFields 0x57#8) rfl, decode_encode (i := .unpack 0x123456#24) rfl,
    decode_encode (i := .calcVoltage 0xFC00#16) rfl, decode_encode (i := .measure 0xFC1994#24) rfl⟩

/-! ## The bytes that are control bytes -/

theorem byteFields_append (b : Byte) : byteTop b ++ byteChan b ++ byteMode b ++ byteRes b ++ byteGain b = b := by
  have hchan : byteTop b ++ byteChan b = b.extractLsb' 5 3 :=
    BitVec.extractLsb'_append_extractLsb'_eq_extractLsb' rfl
  have hmode : b.extractLsb' 5 3 ++ byteMode b = b.extractLsb' 4 4 :=
    BitVec.extractLsb'_append_extractLsb'_eq_extractLsb' rfl
  have hres : b.extractLsb' 4 4 ++ byteRes b = b.extractLsb' 2 6 :=
    BitVec.extractLsb'_append_extractLsb'_eq_extractLsb' rfl
  rw [hchan, hmode, hres]
  exact BitVec.extractLsb'_append_extractLsb'

/-- The start bit is the complement of the mode bit (30_encoding.md R66). -/
theorem controlFields_eq_append (c : Cfg) :
    controlFields c = ~~~c.mode.bit ++ c.chan ++ c.mode.bit ++ c.res.code ++ c.gain := by
  rw [controlFields]
  cases c.mode <;> rfl

theorem byteTop_eq_not_byteMode {b : Byte} (h : b.getLsbD 7 = !b.getLsbD 4) : byteTop b = ~~~byteMode b := by
  apply BitVec.eq_of_getLsbD_eq
  intro i hi
  obtain rfl : i = 0 := by omega
  simpa [byteTop, byteMode] using h

/-- The configuration that a byte with a legal resolution code stands for; a control byte holds no address. -/
theorem cb_of_fields {b : Byte} {r : Resolution} (hstart : b.getLsbD 7 = !b.getLsbD 4) (hres : byteRes b = r.code) :
    cb ⟨0#8, modeOfBit (byteMode b), byteChan b, r, byteGain b⟩ = b := by
  rw [cb_eq_controlFields, controlFields_eq_append]
  dsimp only
  rw [bit_modeOfBit, ← hres, ← byteTop_eq_not_byteMode hstart, byteFields_append]

theorem cb_start_eq_not_mode (c : Cfg) : (cb c).getLsbD 7 = !(cb c).getLsbD 4 := by
  rw [cb_eq_controlFields, controlFields_eq_append, controlConcat_start, controlConcat_mode]
  cases c.mode <;> rfl

/-- Settles O15: a control byte has a legal resolution code, and a byte with one is the control byte of its fields. -/
theorem controlByteValues : Obligations.ControlByteValues := by
  unfold Obligations.ControlByteValues
  intro b
  constructor
  · rintro ⟨c, rfl⟩
    exact ⟨cb_start_eq_not_mode c, fun h => code_ne_reserved c.res ((byteRes_cb c).symm.trans h)⟩
  · rintro ⟨hstart, hlegal⟩
    cases hr : resolutionOfCode (byteRes b) with
    | none => exact absurd (resolutionOfCode_none.mp hr) hlegal
    | some r => exact ⟨_, cb_of_fields hstart (resolutionOfCode_some hr)⟩

end Sys2Proof.Proofs.RoundTrip

/-! The laws of the voltage decoder (44_voltage_decoder.md section 3, 60_exceptions.md R152, R153): the voltage as one
truncated quotient, what follows from it, and O22 to O27 and O35. -/

namespace Sys2Proof.Proofs.VoltageLaws

open Sys2Proof.Machine Sys2Proof.Laws Sys2Proof.Safety Sys2Proof.Proofs.Encoding Sys2Proof.Proofs.StatusDecoder
  Sys2Proof.Proofs.VoltageDecoder

/-! ## `MEASURE` is `UNPACK` and `CALC_VOLTAGE` (R142) -/

theorem unpackAnswer_ready (f : Frame) : (unpackAnswer f).data.getLsbD 24 = ready (frameStatus f) := by
  simp only [unpackAnswer, BitVec.getLsbD_append, readyBit]
  cases ready (frameStatus f) <;> rfl

theorem unpackAnswer_raw (f : Frame) : (unpackAnswer f).data.extractLsb' 0 16 = frameRaw f :=
  BitVec.extractLsb'_append_eq_right

/-- Settles O22: the ready bit of the unpacked frame is the gate of `MEASURE`. -/
theorem measureIsUnpackThenCalcVoltage : Obligations.MeasureIsUnpackThenCalcVoltage := by
  unfold Obligations.MeasureIsUnpackThenCalcVoltage
  intro f s
  refine ⟨(unpackAnswer f).data, exec_unpack f s, fun hready => ?_, fun hready => ?_⟩
  · rw [unpackAnswer_ready] at hready
    rw [exec_measure, unpackAnswer_raw, exec_calcVoltage, measureAnswer, if_pos hready, volt_eq_exactVoltage]
  · rw [unpackAnswer_ready] at hready
    rw [exec_measure, measureAnswer, hready]
    rfl

/-! ## The voltage as a truncated quotient (R145) -/

/-- The codes per millivolt: 1, 4 or 16. -/
def codesPerMv (r : Resolution) : Int := divisor r / 4096

theorem codesPerMv_pos (r : Resolution) : 0 < codesPerMv r := by cases r <;> decide

theorem divisor_eq (r : Resolution) : divisor r = codesPerMv r * 4096 := by cases r <;> rfl

theorem millivolts_eq_tdiv (r : Resolution) (raw : Sample) : millivolts r raw = raw.toInt.tdiv (codesPerMv r) := by
  rw [millivolts_eq, divisor_eq, Int.mul_tdiv_mul_of_pos_left _ _ (by decide)]

/-- Settles O23: the product is exact (`toInt_product`), and 4096 cancels in the quotient. -/
theorem voltageClosedForms : Obligations.VoltageClosedForms := by
  unfold Obligations.VoltageClosedForms
  exact ⟨toInt_product, fun raw => ⟨(millivolts_eq_tdiv .r12 raw).trans (Int.tdiv_one _),
    millivolts_eq_tdiv .r14 raw, millivolts_eq_tdiv .r16 raw⟩⟩

theorem natAbs_toInt_le (x : Sample) : x.toInt.natAbs ≤ 32768 := by
  have hlo : -2 ^ 15 ≤ x.toInt := BitVec.le_toInt x
  have hhi : x.toInt < 2 ^ 15 := BitVec.toInt_lt
  omega

/-- A voltage fits its 32 bits with room to spare. -/
theorem toInt_ofInt_millivolts (r : Resolution) (x : Sample) :
    (BitVec.ofInt 32 (millivolts r x)).toInt = millivolts r x := by
  have hquot : (millivolts r x).natAbs ≤ x.toInt.natAbs := by
    rw [millivolts_eq_tdiv, Int.natAbs_tdiv]
    exact Nat.div_le_self _ _
  have hx := natAbs_toInt_le x
  rw [BitVec.toInt_ofInt]
  exact Int.bmod_eq_of_le (by omega) (by omega)

/-- An answer `OK` rules out the two extreme codes and carries the quotient. -/
theorem volt_ok {r : Resolution} {x : Sample} {a : Word} (h : volt r x = ⟨.ok, a⟩) :
    x.toInt ≠ topCode r ∧ x.toInt ≠ bottomCode r ∧ a.toInt = x.toInt.tdiv (codesPerMv r) := by
  unfold volt at h
  split at h
  · simp at h
  · split at h
    · simp at h
    · rename_i hover hunder
      obtain rfl : BitVec.ofInt 32 (millivolts r x) = a := by simpa using h
      exact ⟨by simpa [isOverRange] using hover, by simpa [isUnderRange] using hunder,
        (toInt_ofInt_millivolts r x).trans (millivolts_eq_tdiv r x)⟩

/-- Settles O24: truncation toward zero is odd. -/
theorem voltageOddSymmetry : Obligations.VoltageOddSymmetry := by
  unfold Obligations.VoltageOddSymmetry
  intro r x y a b hopposite hx hy
  obtain ⟨-, -, ha⟩ := volt_ok hx
  obtain ⟨-, -, hb⟩ := volt_ok hy
  rw [ha, hb, hopposite, Int.neg_tdiv]

/-- Truncation loses less than one divisor. -/
theorem abs_tdiv_mul_sub_lt (x : Int) {k : Int} (hk : 0 < k) : |x.tdiv k * k - x| < k := by
  have hsplit : x.tdiv k * k + x.tmod k = x := Int.tdiv_mul_add_tmod x k
  have hrem : x.tdiv k * k - x = -x.tmod k := by omega
  rw [hrem, abs_neg, abs_lt]
  exact ⟨Int.lt_tmod_of_pos x hk, Int.tmod_lt_of_pos x hk⟩

/-- Settles O25, by the monotonicity of the quotient and `abs_tdiv_mul_sub_lt`. -/
theorem voltageMonotoneAndLinear : Obligations.VoltageMonotoneAndLinear := by
  unfold Obligations.VoltageMonotoneAndLinear
  refine ⟨fun r x y a b hle hx hy => ?_, fun r x a hx => ?_⟩
  · obtain ⟨-, -, ha⟩ := volt_ok hx
    obtain ⟨-, -, hb⟩ := volt_ok hy
    rw [ha, hb]
    exact Int.tdiv_le_tdiv (codesPerMv_pos r) hle
  · obtain ⟨-, -, ha⟩ := volt_ok hx
    rw [ha]
    exact abs_tdiv_mul_sub_lt x.toInt (codesPerMv_pos r)

theorem lt_tdiv_bottomCode (r : Resolution) : -2048 < (bottomCode r + 1).tdiv (codesPerMv r) := by
  cases r <;> decide

theorem tdiv_topCode_lt (r : Resolution) : (topCode r - 1).tdiv (codesPerMv r) < 2048 := by
  cases r <;> decide

/-- Settles O26: of the effective range the two end codes do not answer `OK`, and the quotient is monotone between the
codes next to them. -/
theorem voltageWithinFullScale : Obligations.VoltageWithinFullScale := by
  unfold Obligations.VoltageWithinFullScale
  rintro r x a ⟨hlo, hhi⟩ hx
  obtain ⟨htop, hbottom, ha⟩ := volt_ok hx
  rw [toInt_mincode] at hlo
  rw [toInt_maxcode] at hhi
  rw [ha]
  have hk := codesPerMv_pos r
  exact ⟨(lt_tdiv_bottomCode r).trans_le (Int.tdiv_le_tdiv hk (by omega)),
    (Int.tdiv_le_tdiv hk (by omega)).trans_lt (tdiv_topCode_lt r)⟩

/-! ## Saturation (60_exceptions.md R152, R153) -/

theorem topCode_ne_bottomCode (r : Resolution) : topCode r ≠ bottomCode r := by cases r <;> decide

theorem toInt_eq_topCode_iff (r : Resolution) (raw : Sample) : raw.toInt = topCode r ↔ raw = maxcode r := by
  rw [← toInt_maxcode, BitVec.toInt_inj]

theorem toInt_eq_bottomCode_iff (r : Resolution) (raw : Sample) : raw.toInt = bottomCode r ↔ raw = mincode r := by
  rw [← toInt_mincode, BitVec.toInt_inj]

/-- The code of the answer, by the sample. -/
theorem exactVoltage_code (r : Resolution) (raw : Sample) : (exactVoltage r raw).code =
    if raw.toInt = topCode r then .overRange else if raw.toInt = bottomCode r then .underRange else .ok := by
  unfold exactVoltage
  split_ifs <;> rfl

/-- Settles O27, by the sample: the maximum code, the minimum code, any other. -/
theorem saturationAtTheExtremeCodesOnly : Obligations.SaturationAtTheExtremeCodesOnly := by
  unfold Obligations.SaturationAtTheExtremeCodesOnly
  intro raw s
  refine ⟨_, exec_calcVoltage raw s, ?_⟩
  rw [exactVoltage_code, ne_eq, ne_eq, ← toInt_eq_topCode_iff, ← toInt_eq_bottomCode_iff]
  have hne := topCode_ne_bottomCode s.cfg.res
  split_ifs with htop hbottom
  · simp [htop, hne]
  · simp [hbottom, hne.symm]
  · simp [htop, hbottom]

/-! ## What the voltage commands read (R140, R146) -/

theorem exactVoltage_code_cases (r : Resolution) (raw : Sample) :
    (exactVoltage r raw).code = .ok ∨ (exactVoltage r raw).code = .overRange ∨
      (exactVoltage r raw).code = .underRange := by
  rw [exactVoltage_code]
  split_ifs
  · exact .inr (.inl rfl)
  · exact .inr (.inr rfl)
  · exact .inl rfl

theorem measureAnswer_code_cases (r : Resolution) (f : Frame) :
    (measureAnswer r f).code = .ok ∨ (measureAnswer r f).code = .overRange ∨
      (measureAnswer r f).code = .underRange ∨ (measureAnswer r f).code = .notReady := by
  unfold measureAnswer
  split
  · rw [volt_eq_exactVoltage]
    obtain h | h | h := exactVoltage_code_cases r (frameRaw f)
    · exact .inl h
    · exact .inr (.inl h)
    · exact .inr (.inr (.inl h))
  · exact .inr (.inr (.inr rfl))

/-- Settles O35: both answers are functions of the operand and `RES`. -/
theorem voltageCommandsReadResOnly : Obligations.VoltageCommandsReadResOnly := by
  unfold Obligations.VoltageCommandsReadResOnly
  intro s s' hres
  refine ⟨fun raw => ⟨_, exactVoltage_code_cases s.cfg.res raw, exec_calcVoltage raw s, ?_⟩,
    fun f => ⟨_, measureAnswer_code_cases s.cfg.res f, exec_measure f s, ?_⟩⟩
  · rw [exec_calcVoltage, hres]
  · rw [exec_measure, hres]

end Sys2Proof.Proofs.VoltageLaws

/-! What the commands write and answer (10_state.md section 2, 40_configuration.md section 3, 60_exceptions.md
sections 2 and 3): which register a command changes, the laws of the single-register commands, and O30, O32, O33 and O36. -/

namespace Sys2Proof.Proofs.Commands

open Sys2Proof.Machine Sys2Proof.Laws Sys2Proof.Safety Sys2Proof.Proofs.Encoding Sys2Proof.Proofs.VoltageLaws

/-! ## The registers a command changes -/

/-- A command leaves the configuration, is `CREATE`, or writes its one register. -/
theorem commandEffect_cfg_cases (c : Cfg) (i : Instr) :
    (commandEffect c i).1 = c ∨
    (∃ a m, i = .create a m) ∨
    (∃ m, i = .setMode m ∧ (commandEffect c i).1 = c.setMode m) ∨
    (∃ v, (i = .withChannel v ∨ i = .setChannel v) ∧ (commandEffect c i).1 = c.setChan v) ∨
    (∃ v r, i = .withResolution v ∧ (commandEffect c i).1 = c.setRes r) ∨
    (∃ v, i = .withGain v ∧ (commandEffect c i).1 = c.setGain v) := by
  cases i with
  | create a m => exact .inr (.inl ⟨a, m, rfl⟩)
  | setMode m => exact .inr (.inr (.inl ⟨m, rfl, rfl⟩))
  | withChannel v => exact .inr (.inr (.inr (.inl ⟨v, .inl rfl, rfl⟩)))
  | setChannel v => exact .inr (.inr (.inr (.inl ⟨v, .inr rfl, rfl⟩)))
  | withResolution v =>
    cases hr : resolutionOfCode v with
    | none => exact .inl (by simp only [commandEffect, hr])
    | some r => exact .inr (.inr (.inr (.inr (.inl ⟨v, r, rfl, by simp only [commandEffect, hr]; rfl⟩))))
  | withGain v => exact .inr (.inr (.inr (.inr (.inr ⟨v, rfl, rfl⟩))))
  | cbFields b =>
    refine .inl ?_
    simp only [commandEffect]
    split <;> rfl
  | _ => exact .inl rfl

theorem exec_cfg {i : Instr} {s t : State} (h : exec i s = .next t) : t.cfg = (commandEffect s.cfg i).1 := by
  rw [exec_eq_commandEffect] at h
  cases h
  rfl

/-- Settles O32, by the registers that a command can write and the frame of every command. -/
theorem onlyNamedCommandsWriteRegisters : Obligations.OnlyNamedCommandsWriteRegisters := by
  unfold Obligations.OnlyNamedCommandsWriteRegisters
  intro i s t h
  obtain ⟨hevents, hseq, hbus⟩ := exec_frame h
  rw [exec_cfg h, hevents, hseq, hbus]
  obtain hkept | ⟨a, m, rfl⟩ | ⟨m, rfl, hmode⟩ | ⟨v, rfl | rfl, hchan⟩ | ⟨v, r, rfl, hres⟩ | ⟨v, rfl, hgain⟩ :=
    commandEffect_cfg_cases s.cfg i
  · simp [hkept]
  · simp
  · simp [hmode]
  · simp [hchan]
  · simp [hchan]
  · simp [hres]
  · simp [hgain]

/-! ## What the commands answer -/

/-- The codes other than `OK` that a command answers with (60_exceptions.md R151). -/
def errorCodes : List Code := [.overRange, .underRange, .notReady, .illegal]

/-- The command's answer is `OK`, or it is an error of the command with data 0 and the configuration is as it was
(60_exceptions.md R151, R157). -/
def AnswersOkOrError (c : Cfg) (effect : Cfg × Response) : Prop :=
  effect.2.code = .ok ∨ ∃ code ∈ errorCodes, effect = (c, ⟨code, 0#32⟩)

theorem exactVoltage_answersOkOrError (c : Cfg) (r : Resolution) (raw : Sample) :
    AnswersOkOrError c (c, exactVoltage r raw) := by
  unfold exactVoltage
  split_ifs
  · exact .inr ⟨.overRange, by decide, rfl⟩
  · exact .inr ⟨.underRange, by decide, rfl⟩
  · exact .inl rfl

theorem commandEffect_answersOkOrError (c : Cfg) (i : Instr) : AnswersOkOrError c (commandEffect c i) := by
  cases i with
  | withResolution res =>
    simp only [commandEffect]
    cases resolutionOfCode res with
    | none => exact .inr ⟨.illegal, by decide, rfl⟩
    | some r => exact .inl rfl
  | cbFields b =>
    simp only [commandEffect]
    split
    · exact .inr ⟨.illegal, by decide, rfl⟩
    · exact .inl rfl
  | calcVoltage raw => exact exactVoltage_answersOkOrError c c.res raw
  | measure f =>
    simp only [commandEffect, exactMeasure]
    split
    · exact .inr ⟨.notReady, by decide, rfl⟩
    · exact exactVoltage_answersOkOrError c c.res _
  | _ => exact .inl rfl

/-- Settles O30: the effect of a command that answers an error is that answer alone. -/
theorem errorAnswersChangeNothingElse : Obligations.ErrorAnswersChangeNothingElse := by
  unfold Obligations.ErrorAnswersChangeNothingElse
  intro i s
  refine ⟨_, _, exec_eq_commandEffect i s, State.answer_response _ _, fun hne => ?_⟩
  obtain hok | ⟨code, -, herror⟩ := commandEffect_answersOkOrError s.cfg i
  · exact absurd hok hne
  · rw [herror]
    exact ⟨rfl, rfl⟩

theorem commandEffect_cbFields (c : Cfg) (b : Byte) : (commandEffect c (.cbFields b)).1 = c ∧
    (WellFormed (.cbFields b) → (commandEffect c (.cbFields b)).2.code = .ok) := by
  rw [wellFormed_cbFields, commandEffect]
  split
  · exact ⟨rfl, fun hlegal => absurd ‹byteRes b = 3#2› hlegal⟩
  · exact ⟨rfl, fun _ => rfl⟩

/-- The six encoder commands write no register, and a well-formed one answers `OK` (41_control_encoder.md R100). -/
theorem commandEffect_encoder {i : Instr} (c : Cfg) (hi : i = .controlByte ∨ i = .settleDelay ∨ i = .resBits ∨
    i = .maxCode ∨ i = .minCode ∨ ∃ b, i = .cbFields b) :
    (commandEffect c i).1 = c ∧ (WellFormed i → (commandEffect c i).2.code = .ok) := by
  obtain rfl | rfl | rfl | rfl | rfl | ⟨b, rfl⟩ := hi
  on_goal 6 => exact commandEffect_cbFields c b
  all_goals exact ⟨rfl, fun _ => rfl⟩

/-- Settles O33: the effect of a command is a function of the configuration, and an encoder command leaves that. -/
theorem encoderCommandsArePure : Obligations.EncoderCommandsArePure := by
  unfold Obligations.EncoderCommandsArePure
  intro i s s' hi hcfg
  obtain ⟨hkept, hok⟩ := commandEffect_encoder s.cfg hi
  refine ⟨(commandEffect s.cfg i).2, hok, fun hwf => ?_, ?_, ?_⟩
  · rw [commandEffect_of_not_wellFormed _ hwf]
  · rw [exec_eq_commandEffect, hkept]
    rfl
  · rw [exec_eq_commandEffect, ← hcfg, hkept, hcfg]
    rfl

/-! ## The single-register commands (40_configuration.md R98 laws 1 and 2) -/

/-- The configuration with one register taken from another one. -/
def takeRegister (p : ConfigRegister) (v c : Cfg) : Cfg :=
  match p with
  | .mode => c.setMode v.mode
  | .chan => c.setChan v.chan
  | .res => c.setRes v.res
  | .gain => c.setGain v.gain

/-- A single-register command writes a value of its own into its register, whatever the configuration is. -/
theorem exists_takeRegister {i : Instr} {p : ConfigRegister} (hp : registerOf i = some p) (hwf : WellFormed i) :
    ∃ v, ∀ c, (commandEffect c i).1 = takeRegister p v c := by
  cases i with
  | withResolution res =>
    cases hp
    cases hr : resolutionOfCode res with
    | none => exact absurd (resolutionOfCode_none.mp hr) ((wellFormed_withResolution res).mp hwf)
    | some r => exact ⟨(Cfg.default 0#8 .oneShot).setRes r, fun c => by simp only [commandEffect, hr]; rfl⟩
  | withGain gain => cases hp; exact ⟨(Cfg.default 0#8 .oneShot).setGain gain, fun c => rfl⟩
  | withChannel chan => cases hp; exact ⟨(Cfg.default 0#8 .oneShot).setChan chan, fun c => rfl⟩
  | setChannel chan => cases hp; exact ⟨(Cfg.default 0#8 .oneShot).setChan chan, fun c => rfl⟩
  | setMode mode => cases hp; exact ⟨(Cfg.default 0#8 .oneShot).setMode mode, fun c => rfl⟩
  | _ => cases hp

theorem takeRegister_same (p : ConfigRegister) (v w c : Cfg) :
    takeRegister p w (takeRegister p v c) = takeRegister p w c := by
  cases p <;> rfl

theorem takeRegister_comm {p q : ConfigRegister} (hpq : p ≠ q) (v w c : Cfg) :
    takeRegister q w (takeRegister p v c) = takeRegister p v (takeRegister q w c) := by
  cases p with
  | mode => cases q with
    | mode => exact absurd rfl hpq
    | _ => rfl
  | chan => cases q with
    | chan => exact absurd rfl hpq
    | _ => rfl
  | res => cases q with
    | res => exact absurd rfl hpq
    | _ => rfl
  | gain => cases q with
    | gain => exact absurd rfl hpq
    | _ => rfl

/-- Settles O36: each command writes its own value into its register, and such writes commute or overwrite. -/
theorem configurationCommandsCommute : Obligations.ConfigurationCommandsCommute := by
  unfold Obligations.ConfigurationCommandsCommute
  intro i j p q s hp hq hwfi hwfj
  obtain ⟨v, hi⟩ := exists_takeRegister hp hwfi
  obtain ⟨w, hj⟩ := exists_takeRegister hq hwfj
  refine ⟨_, _, _, _, exec_eq_commandEffect i s, exec_eq_commandEffect j s, exec_eq_commandEffect j _,
    exec_eq_commandEffect i _, ?_⟩
  simp only [State.answer_cfg, State.withCfg_cfg, hi, hj]
  refine ⟨fun hpq => takeRegister_comm hpq v w s.cfg, ?_⟩
  rintro rfl
  exact takeRegister_same p v w s.cfg

end Sys2Proof.Proofs.Commands

/-! The step by its request (30_encoding.md section 5, 43_conversion_protocol.md sections 1 and 5,
40_configuration.md R98 laws 3 and 4): what a command word leaves in the configuration, runs of command words, what a
step can put on the response port, and O31, O37, O38, O42, O43, O44, O51, O53 and O58. -/

namespace Sys2Proof.Proofs.Requests

open Sys2Proof.Machine Sys2Proof.Laws Sys2Proof.Safety Sys2Proof.Proofs.Memory Sys2Proof.Proofs.Encoding
  Sys2Proof.Proofs.Configuration Sys2Proof.Proofs.Conversion Sys2Proof.Proofs.RoundTrip Sys2Proof.Proofs.Commands

/-! ## The oldest request -/

/-- Settles O42, by the delivery of a legal word. -/
theorem stepRunsTheDecodedInstruction : Obligations.StepRunsTheDecodedInstruction := by
  unfold Obligations.StepRunsTheDecodedInstruction
  refine ⟨fun s w rest i he hd => ?_, fun s i => ?_⟩
  · rw [step_cons he]
    exact deliver_ok hd _
  · simp only [State.noteCommand, Bool.and_eq_true]
    rfl

/-- Waiting for a sequence that runs is a move of the sequencer, and the request stays. -/
theorem awaitResult_running {s : State} {rest : List Event} (he : s.events = .await :: rest)
    (hrun : s.seq.phase.running = true) : awaitResult (s.withEvents rest) = advance s := by
  have hsame : (s.withEvents rest).withEvents (.await :: rest) = s := by rw [← he]; rfl
  unfold awaitResult
  rw [State.withEvents_events, hsame, State.withEvents_seq]
  cases hp : s.seq.phase with
  | idle => simp [hp, Phase.running] at hrun
  | done => simp [hp, Phase.running] at hrun
  | _ => rfl

theorem awaitResult_done {s : State} (hp : s.seq.phase = .done) : awaitResult s = .next (s.setPhase .idle) := by
  simp only [awaitResult, hp]

/-- Settles O43, by the oldest request and, for `await`, by the phase. -/
theorem stepServesTheOldestRequest : Obligations.StepServesTheOldestRequest := by
  unfold Obligations.StepServesTheOldestRequest
  exact ⟨fun s => step_nil, fun s rest => step_cons,
    fun s rest he hrun => (step_cons he).trans (awaitResult_running he hrun),
    fun s rest he hp => (step_cons he).trans (awaitResult_done (s := s.withEvents rest) hp)⟩

theorem tableWord_toNat (w : Word) : tableWord 32 w.toNat = w := by
  rw [tableWord, Nat.mod_eq_of_lt w.isLt, BitVec.ofNat_toNat, BitVec.setWidth_eq]

/-- Settles O44: the presented word is the encoding, and that decodes to the instruction. -/
theorem fetchWordRunsNext : Obligations.FetchWordRunsNext := by
  unfold Obligations.FetchWordRunsNext
  intro s i hwf
  rw [State.withFetchWord, decodeTableWord, tableWord_toNat, step_present, decode_encode hwf]
  exact ⟨deliver_ok (decode_encode hwf) s, rfl⟩

/-! ## The registers and the sequencer -/

/-- Settles O51: of what a step can do, only a command word and a reset write a register. -/
theorem sequencesWriteNoRegister : Obligations.SequencesWriteNoRegister := by
  unfold Obligations.SequencesWriteNoRegister
  intro s t hhead h
  obtain ⟨w, rest, he, -⟩ | ⟨q, rest, -, -, ⟨rfl, -⟩ | ⟨rfl, -⟩⟩ | ⟨es, rfl⟩ | ⟨rest, -, -, rfl⟩ |
    ⟨a, m, rest, he, -⟩ := step_cases h
  · simp [he, isSequencerRequest] at hhead
  · rfl
  · rfl
  · rw [move_cfg, State.withEvents_cfg]
  · rfl
  · simp [he, isSequencerRequest] at hhead

/-- Settles O53: no sequence has been started, and there is no trace and no result. -/
theorem resetTraceInOrder : Obligations.ResetTraceInOrder := by
  unfold Obligations.ResetTraceInOrder
  exact ⟨fun _ _ _ _ => .inl ⟨rfl, rfl, rfl⟩, .inl ⟨rfl, rfl, rfl⟩⟩

theorem noteCommand_disturbed {s : State} {i : Instr} (hrun : s.seq.phase.running = true)
    (hwrites : writesConfiguration i = true) : (s.noteCommand i).seq.disturbed = true := by
  simp [State.noteCommand, hrun, hwrites]

theorem step_disturbed {s : State} (he : s.events = []) (hrun : s.seq.phase.running = true)
    (hd : s.seq.disturbed = true) : step s = .refused .configurationDuringSequence := by
  rw [step_nil he, advance, hrun, hd]
  rfl

/-- Settles O58: the flag is not in the configuration that the command reads, and it stops the sequencer. -/
theorem configurationDuringSequenceEndsItsMeaning : Obligations.ConfigurationDuringSequenceEndsItsMeaning := by
  unfold Obligations.ConfigurationDuringSequenceEndsItsMeaning
  intro s i hrun hwrites hwf
  have hstep : step (s.present (encode i)) = exec i (s.noteCommand i) :=
    (step_present _ s).trans (deliver_ok (decode_encode hwf) s)
  rw [exec_eq_commandEffect, noteCommand_cfg] at hstep
  refine ⟨_, _, exec_eq_commandEffect i s, hstep, rfl, rfl, noteCommand_bus i s, noteCommand_phase i s,
    step_disturbed rfl ?_ (noteCommand_disturbed hrun hwrites)⟩
  exact (congrArg Phase.running (noteCommand_phase i s)).trans hrun

/-! ## The response port -/

/-- The response is the answer of some command to some configuration. -/
def IsCommandAnswer (r : Response) : Prop := ∃ c i, r = (commandEffect c i).2

/-- The answer to an illegal word is also that of a command with a reserved operand (30_encoding.md R74). -/
theorem isCommandAnswer_illegal : IsCommandAnswer ⟨.illegal, 0#32⟩ :=
  ⟨.default 0#8 .oneShot, .withResolution 3#2, rfl⟩

/-- What `exec` puts on the port is an answer. -/
theorem isCommandAnswer_of_exec {i : Instr} {s : State} {r : Response} (h : exec i s = .next (s.answer r)) :
    IsCommandAnswer r := by
  rw [exec_eq_commandEffect] at h
  have hport : some (commandEffect s.cfg i).2 = some r := congrArg State.response (Host.Outcome.next.inj h)
  exact ⟨s.cfg, i, (Option.some.inj hport).symm⟩

/-- The port keeps its answer, is cleared, or holds the answer of a command. -/
def PortAfter (s t : State) : Prop :=
  t.response = s.response ∨ t.response = none ∨ ∃ r, t.response = some r ∧ IsCommandAnswer r

theorem portAfter_deliver {w : Word} {s t : State} (h : deliver w s = .next t) : PortAfter s t := by
  cases hd : decode w with
  | error e =>
    rw [deliver_error hd] at h
    cases h
    exact .inr (.inr ⟨_, rfl, isCommandAnswer_illegal⟩)
  | ok i =>
    rw [deliver_ok hd, exec_eq_commandEffect] at h
    cases h
    exact .inr (.inr ⟨_, rfl, _, i, rfl⟩)

theorem portAfter_afterWrite (q : Sequence) (a b : Byte) (s : State) : PortAfter s (afterWrite q a b s) := by
  cases hack : s.bus.nextAck with
  | true =>
    rw [afterWrite_of_nextAck q a b hack]
    exact .inr (.inr ⟨_, rfl, isCommandAnswer_of_exec (i := .settleDelay) (s := s) rfl⟩)
  | false =>
    rw [afterWrite_of_not_nextAck q a b hack]
    exact .inl rfl

/-- A frame is read through `STATUS` or through `MEASURE`. -/
theorem isCommandAnswer_frameAnswer (q : Sequence) (s : State) (f : Frame) :
    IsCommandAnswer (frameAnswer q s.cfg.res f) := by
  cases q with
  | contConfig => exact isCommandAnswer_of_exec (i := .status (frameStatus f)) (s := s) rfl
  | oneShot => exact isCommandAnswer_of_exec (i := .measure f) (s := s) rfl
  | readPoll => exact isCommandAnswer_of_exec (i := .measure f) (s := s) rfl

theorem portAfter_afterRead (q : Sequence) (a : Byte) (s : State) : PortAfter s (afterRead q a s) := by
  cases hnext : s.nextFrame with
  | none =>
    rw [afterRead_of_none q a hnext]
    exact .inl rfl
  | some f =>
    refine .inr (.inr ⟨_, ?_, isCommandAnswer_frameAnswer q s f⟩)
    cases hf : ready (frameStatus f) with
    | true => rw [afterRead_of_ready q a hnext hf]; rfl
    | false => rw [afterRead_of_not_ready q a hnext hf]; rfl

theorem portAfter_move (s : State) : PortAfter s (move s) := by
  cases hp : s.seq.phase with
  | idle => exact .inl (by simp only [move, hp])
  | requested q a b => rw [move_requested hp]; exact portAfter_afterWrite q a b s
  | settling q a ms => rw [move_sleeping (.inl hp)]; exact .inl rfl
  | reading q a => rw [move_reading hp]; exact portAfter_afterRead q a s
  | polling q a ms => rw [move_sleeping (.inr hp)]; exact .inl rfl
  | done => exact .inl (by simp only [move, hp])

/-- Every answer on the port is a command's, of the caller's or of the sequencer's (43_conversion_protocol.md R120). -/
theorem portAfter_step {s t : State} (h : step s = .next t) : PortAfter s t := by
  obtain ⟨w, rest, -, hd⟩ | ⟨q, rest, -, -, ⟨rfl, -⟩ | ⟨rfl, -⟩⟩ | ⟨es, rfl⟩ | ⟨rest, -, -, rfl⟩ |
    ⟨a, m, rest, -, rfl⟩ := step_cases h
  · exact portAfter_deliver (s := s.withEvents rest) hd
  · exact .inr (.inr ⟨_, rfl, isCommandAnswer_of_exec (i := .controlByte) (s := s) rfl⟩)
  · exact .inr (.inr ⟨_, rfl, isCommandAnswer_of_exec (i := .getAddr) (s := s) rfl⟩)
  · exact portAfter_move (s.withEvents es)
  · exact .inl rfl
  · exact .inr (.inl rfl)

theorem errorCodes_unreserved : ∀ code ∈ errorCodes, code ≠ .notInitialized ∧ code ≠ .busError := by decide

theorem isCommandAnswer_unreserved {r : Response} (h : IsCommandAnswer r) :
    r.code ≠ .notInitialized ∧ r.code ≠ .busError := by
  obtain ⟨c, i, rfl⟩ := h
  obtain hok | ⟨code, hcode, herror⟩ := commandEffect_answersOkOrError c i
  · rw [hok]
    decide
  · rw [herror]
    exact errorCodes_unreserved code hcode

/-- Settles O31: what a step puts on the port is the answer of a command, which is `OK` or one of `errorCodes`. -/
theorem reservedCodesAreNeverProduced : Obligations.ReservedCodesAreNeverProduced := by
  unfold Obligations.ReservedCodesAreNeverProduced
  refine ⟨fun s t hs h r hr => ?_, fun q => by cases q <;> simp [SeqResult.code]⟩
  obtain hkept | hnone | ⟨r', hr', hanswer⟩ := portAfter_step h
  · exact hs r (hkept.symm.trans hr)
  · rw [hnone] at hr
    cases hr
  · obtain rfl : r' = r := Option.some.inj (hr'.symm.trans hr)
    exact isCommandAnswer_unreserved hanswer

/-! ## Runs of command words -/

/-- The configuration after a word has been delivered: what its command leaves, or the same for an illegal word. -/
def wordEffect (c : Cfg) (w : Word) : Cfg :=
  match decode w with
  | .error _ => c
  | .ok i => (commandEffect c i).1

theorem wordEffect_of_decode {w : Word} {i : Instr} (hd : decode w = .ok i) (c : Cfg) :
    wordEffect c w = (commandEffect c i).1 := by
  simp only [wordEffect, hd]

theorem wordEffect_encode {i : Instr} (hwf : WellFormed i) (c : Cfg) :
    wordEffect c (encode i) = (commandEffect c i).1 :=
  wordEffect_of_decode (decode_encode hwf) c

theorem deliver_cfg {w : Word} {s t : State} (h : deliver w s = .next t) : t.cfg = wordEffect s.cfg w := by
  cases hd : decode w with
  | error e =>
    rw [deliver_error hd] at h
    cases h
    simp only [wordEffect, hd, State.answer_cfg]
  | ok i =>
    rw [deliver_ok hd] at h
    rw [exec_cfg h, noteCommand_cfg, wordEffect_of_decode hd]

/-- A list of command words runs to its end in one step each, in any state, and leaves their effects in order. -/
theorem runFor_words (ws : List Word) {s : State} (he : s.events = ws.map Event.command) :
    ∃ t, runFor ws.length s = .next t ∧ t.events = [] ∧ t.cfg = ws.foldl wordEffect s.cfg := by
  induction ws generalizing s with
  | nil => exact ⟨s, rfl, he, rfl⟩
  | cons w ws ih =>
    obtain ⟨t, ht, hevents, -⟩ := deliver_frame w (s.withEvents (ws.map Event.command))
    obtain ⟨u, hrun, hdone, hcfg⟩ := ih hevents
    refine ⟨u, (runFor_succ ((step_cons he).trans ht)).trans hrun, hdone, ?_⟩
    rw [hcfg, deliver_cfg ht]
    rfl

theorem wordEffect_addr (c : Cfg) {w : Word} (hw : ∀ b k, decode w ≠ .ok (.create b k)) :
    (wordEffect c w).addr = c.addr := by
  cases hd : decode w with
  | error e => simp only [wordEffect, hd]
  | ok i =>
    rw [wordEffect_of_decode hd]
    exact commandEffect_addr c fun b k hi => hw b k (hi ▸ hd)

theorem foldl_wordEffect_addr {ws : List Word} (hws : ∀ w ∈ ws, ∀ b k, decode w ≠ .ok (.create b k)) (c : Cfg) :
    (ws.foldl wordEffect c).addr = c.addr := by
  induction ws generalizing c with
  | nil => rfl
  | cons w ws ih =>
    obtain ⟨hw, hrest⟩ := List.forall_mem_cons.mp hws
    rw [List.foldl_cons, ih hrest, wordEffect_addr c hw]

/-- Settles O37: the words run in order (`runFor_words`), and none after `CREATE` writes `ADDR`. -/
theorem addrKeptUntilTheNextCreate : Obligations.AddrKeptUntilTheNextCreate := by
  unfold Obligations.AddrKeptUntilTheNextCreate
  intro a m ws s hws
  obtain ⟨t, hrun, hdone, hcfg⟩ := runFor_words (encode (.create a m) :: ws)
    (s := s.withEvents (.command (encode (.create a m)) :: ws.map Event.command)) rfl
  refine ⟨t, hrun, ?_, hdone⟩
  rw [hcfg, List.foldl_cons, foldl_wordEffect_addr hws, wordEffect_encode rfl]
  rfl

/-- The four commands that set up a configuration (40_configuration.md R98 law 4). -/
def setupWords (c : Cfg) : List Word :=
  [encode (.create c.addr c.mode), encode (.withResolution c.res.code), encode (.withGain c.gain),
    encode (.withChannel c.chan)]

theorem foldl_setupWords (c d : Cfg) : (setupWords c).foldl wordEffect d = c := by
  have hres : WellFormed (.withResolution c.res.code) := (wellFormed_withResolution _).mpr (code_ne_reserved c.res)
  rw [setupWords, List.foldl_cons, List.foldl_cons, List.foldl_cons, List.foldl_cons, List.foldl_nil,
    wordEffect_encode (i := .create _ _) rfl, wordEffect_encode hres, wordEffect_encode (i := .withGain _) rfl,
    wordEffect_encode (i := .withChannel _) rfl]
  simp only [commandEffect, resolutionOfCode_code]
  rfl

/-- Settles O38, by the words of `setupWords`. -/
theorem everyConfigurationInFourCommands : Obligations.EveryConfigurationInFourCommands := by
  unfold Obligations.EveryConfigurationInFourCommands
  intro s c
  obtain ⟨t, hrun, -, hcfg⟩ := runFor_words (setupWords c)
    (s := s.withEvents ((setupWords c).map Event.command)) rfl
  exact ⟨setupWords c, le_rfl, t, hrun, hcfg.trans (foldl_setupWords c _)⟩

end Sys2Proof.Proofs.Requests

/-! The sequences against a bus stub (43_conversion_protocol.md sections 4 and 6, 20_memory.md sections 1 to 3): frames
and the bytes of the bus, the loop over frames given in advance, and O49, O54 and O55. -/

namespace Sys2Proof.Proofs.Acquisition

open Sys2Proof.Machine Sys2Proof.Laws Sys2Proof.Safety Sys2Proof.Proofs.Memory Sys2Proof.Proofs.Encoding
  Sys2Proof.Proofs.Conversion

/-! ## Frames and bytes -/

theorem frameOf_of_length_ne {bs : List Byte} (h : bs.length ≠ 3) : frameOf (.bytes bs) = none := by
  rw [Option.eq_none_iff_forall_not_mem]
  intro f hf
  obtain ⟨hi, lo, st, hbytes, -⟩ := frameOf_eq_some.mp hf
  cases hbytes
  exact h rfl

/-- Settles O49: a frame is the concatenation of its three bytes, and a read without a frame ends the sequence. -/
theorem framesComeFromThreeBytes : Obligations.FramesComeFromThreeBytes := by
  unfold Obligations.FramesComeFromThreeBytes
  refine ⟨fun hi lo st => ⟨_, rfl, frameRaw_append _ st, frameStatus_append _ st, rfl⟩,
    fun bs => frameOf_of_length_ne, rfl, fun s q a he hp hd hnone => ⟨_, step_reading he hp hd, ?_⟩⟩
  rw [afterRead_of_none q a hnone]
  exact ⟨rfl, rfl, rfl⟩

/-- The bytes of a frame in bus order give the frame back (30_encoding.md R68). -/
theorem frameOf_busBytes (f : Frame) : frameOf (busBytes f) = some f := by
  have hhigh : f.extractLsb' 16 8 ++ f.extractLsb' 8 8 = f.extractLsb' 8 16 :=
    BitVec.extractLsb'_append_extractLsb'_eq_extractLsb' rfl
  have hall : f.extractLsb' 8 16 ++ f.extractLsb' 0 8 = f := BitVec.extractLsb'_append_extractLsb'
  exact congrArg some ((congrArg (· ++ f.extractLsb' 0 8) hhigh).trans hall)

theorem nextFrame_of_readStub {s : State} {f : Frame} {rest : List Config.BusRead}
    (h : s.bus.readStub = busBytes f :: rest) : s.nextFrame = some f := by
  rw [State.nextFrame, answerAt_zero_cons h, frameOf_busBytes]

/-! ## The loop over frames given in advance -/

/-- The loop that was reading in `s` reads again after one poll for each frame of `fs`: the trace holds the polls, the
device's register is as it was, and `rest` is what is left of the answers given in advance. -/
structure Polled (fs : List Frame) (rest : List Config.BusRead) (q : Sequence) (a : Byte) (s t : State) : Prop
    extends ReadsAgain fs.length q a s t where
  trace : t.seq.trace = s.seq.trace ++ polls a fs
  control : t.bus.control = s.bus.control
  readStub : t.bus.readStub = rest

section Loop

variable {s t : State} {q : Sequence} {a : Byte} {f : Frame} {fs : List Frame} {rest : List Config.BusRead}

theorem polled_nil (he : s.events = []) (hp : s.seq.phase = .reading q a) (hd : s.seq.disturbed = false)
    (hstub : s.bus.readStub = rest) : Polled [] rest q a s s where
  toReadsAgain := readsAgain_zero he hp hd
  trace := (List.append_nil _).symm
  control := rfl
  readStub := hstub

theorem polled_concat (h : Polled fs (busBytes f :: rest) q a s t) :
    Polled (fs ++ [f]) rest q a s (afterPoll q a f t) where
  toReadsAgain := by
    rw [List.length_append]
    exact readsAgain_afterPoll f h.toReadsAgain
  trace := by
    have hpoll : (afterPoll q a f t).seq.trace =
        t.seq.trace ++ [.read a (some f)] ++ [.sleep Config.pollInterval] := rfl
    rw [hpoll, h.trace, polls_concat]
    simp only [List.append_assoc]
  control := by rw [afterPoll_bus, State.takeRead_bus_control, h.control]
  readStub := by rw [afterPoll_bus, State.takeRead_bus_readStub, h.readStub, List.tail_cons]

/-- The loop reads its way through the frames that are not ready, in two steps each. -/
theorem exists_polled (he : s.events = []) (hp : s.seq.phase = .reading q a) (hd : s.seq.disturbed = false)
    (hfs : AllNotReady fs) (hstub : s.bus.readStub = fs.map busBytes ++ rest) :
    ∃ t, Polled fs rest q a s t ∧ ∀ m, runFor (2 * fs.length + m) s = runFor m t := by
  induction fs using List.reverseRecOn generalizing rest with
  | nil => exact ⟨s, polled_nil he hp hd hstub, fun m => by rw [List.length_nil, Nat.mul_zero, Nat.zero_add]⟩
  | append_singleton fs f ih =>
    have hinit : AllNotReady fs := fun g hg => hfs g (List.mem_append_left _ hg)
    have hlast : ready (frameStatus f) = false := hfs f (List.mem_append_right _ (List.mem_singleton_self f))
    have hsplit : s.bus.readStub = fs.map busBytes ++ busBytes f :: rest := by simpa using hstub
    obtain ⟨t, ht, hrun⟩ := ih hinit hsplit
    refine ⟨afterPoll q a f t, polled_concat ht, fun m => ?_⟩
    have hsteps : 2 * (fs ++ [f]).length + m = 2 * fs.length + (m + 2) := by
      rw [List.length_append, List.length_singleton]
      omega
    rw [hsteps, hrun,
      runFor_afterPoll ht.events ht.phase ht.undisturbed (nextFrame_of_readStub ht.readStub) hlast]

/-- The sequence has ended with the ready frame `f`, after one poll for each frame of `fs`. -/
structure Acquired (fs : List Frame) (f : Frame) (rest : List Config.BusRead) (q : Sequence) (a : Byte)
    (s t : State) : Prop where
  phase : t.seq.phase = .done
  result : t.seq.result = some (endResult q s.cfg.res f)
  trace : t.seq.trace = s.seq.trace ++ polls a fs ++ [.read a (some f)]
  readStub : t.bus.readStub = rest
  reads : t.bus.reads = s.bus.reads + fs.length + 1
  control : t.bus.control = s.bus.control
  cfg : t.cfg = s.cfg

theorem acquired_afterRead (hf : FrameReady f) (h : Polled fs (busBytes f :: rest) q a s t) :
    Acquired fs f rest q a s (afterRead q a t) where
  phase := by rw [afterRead_of_ready q a (nextFrame_of_readStub h.readStub) hf]; rfl
  result := by rw [afterRead_of_ready q a (nextFrame_of_readStub h.readStub) hf, h.cfg]; rfl
  trace := by rw [afterRead_trace, nextFrame_of_readStub h.readStub, h.trace]
  readStub := by rw [afterRead_bus, State.takeRead_bus_readStub, h.readStub, List.tail_cons]
  reads := by rw [afterRead_bus, State.takeRead_bus_reads, h.reads]
  control := by rw [afterRead_bus, State.takeRead_bus_control, h.control]
  cfg := by rw [afterRead_cfg, h.cfg]

theorem runFor_acquired (he : s.events = []) (hp : s.seq.phase = .reading q a) (hd : s.seq.disturbed = false)
    (hfs : AllNotReady fs) (hf : FrameReady f) (hstub : s.bus.readStub = fs.map busBytes ++ busBytes f :: rest) :
    ∃ t, runFor (2 * fs.length + 1) s = .next t ∧ Acquired fs f rest q a s t := by
  obtain ⟨t, ht, hrun⟩ := exists_polled he hp hd hfs hstub
  refine ⟨afterRead q a t, ?_, acquired_afterRead hf ht⟩
  rw [hrun 1, runFor_succ (step_reading ht.events ht.phase ht.undisturbed)]
  rfl

end Loop

/-- Settles O54, by the polls (`exists_polled`) and the last read. -/
theorem pollLoopReadsOncePerFrame : Obligations.PollLoopReadsOncePerFrame := by
  unfold Obligations.PollLoopReadsOncePerFrame
  intro s q a fs f rest he hp hd hfs hf hstub
  obtain ⟨t, hrun, ht⟩ := runFor_acquired he hp hd hfs hf hstub
  exact ⟨t, hrun, ht.phase, ht.result, ht.trace, ht.readStub, ht.reads, ht.cfg⟩

/-! ## The one-shot acquisition -/

/-- The one-shot sequence when its write has been acknowledged and its settle sleep is over (R122, R123). -/
def oneShotSettled (s : State) : State :=
  { s with
    events := []
    response := some ⟨.ok, BitVec.ofNat 32 (settleMs s.cfg.res)⟩
    seq := ⟨.reading .oneShot s.cfg.addr, some .oneShot, none,
      [.write s.cfg.addr (cb s.cfg) true, .sleep (settleMs s.cfg.res + 2)], false⟩
    bus := { s.bus with
      writeStub := s.bus.writeStub.tail, writes := s.bus.writes + 1, control := cb s.cfg } }

/-- Start, write and settle sleep take one step each. -/
theorem runFor_oneShotSettled {s : State} (he : s.events = [.start .oneShot]) (hp : s.seq.phase = .idle)
    (hm : s.cfg.mode = .oneShot) (hack : s.bus.nextAck = true) (m : Nat) :
    runFor (m + 3) s = runFor m (oneShotSettled s) := by
  have hstart : step s = .next (requestWrite .oneShot (s.withEvents [])) :=
    (step_start he).trans (startSequence_oneShot (s := s.withEvents []) hp hm)
  have hwrite := step_requested (s := requestWrite .oneShot (s.withEvents [])) rfl rfl rfl
  rw [afterWrite_of_nextAck (s := requestWrite .oneShot (s.withEvents [])) _ _ _ hack, settleDelayAnswer_eq,
    settleSleep_oneShot] at hwrite
  rw [runFor_succ hstart, runFor_succ hwrite, runFor_succ (step_sleeping rfl (.inl rfl) rfl)]
  rfl

/-- Settles O55: start, write and settle sleep lead into the loop (`runFor_oneShotSettled`), and the loop ends with the
ready frame (`runFor_acquired`). -/
theorem oneShotTrace : Obligations.OneShotTrace := by
  unfold Obligations.OneShotTrace
  intro s fs f rest acks he hp hm hfs hf hacks hstub
  obtain ⟨t, hrun, ht⟩ := runFor_acquired (s := oneShotSettled s) rfl rfl rfl hfs hf hstub
  have hcfg : t.cfg = s.cfg := ht.cfg
  have hcontrol : t.bus.control = cb s.cfg := ht.control
  refine ⟨t, ?_, ht.phase, ht.result, ht.trace, (cb_start s.cfg).mpr hm, hcfg, hcontrol, ?_⟩
  · exact (runFor_oneShotSettled he hp hm (nextAck_cons hacks) (2 * fs.length + 1)).trans hrun
  · rw [DeviceInStep, hcontrol, hcfg]

end Sys2Proof.Proofs.Acquisition
